-- ==== Sys2Proof/Word.lean ====
section
/-!
DEFINITION. The word types of SBBS (spec/10_state.md R22, R25, R26; spec/30_encoding.md R70, R79).

Everything SBBS treats as bits is a bit vector of the width the spec gives it; what SBBS only passes
along (a handle, a log target) is a token it never looks into.
-/

namespace Sys2Proof

/-- A byte on the port interface: a register byte RB, an I/O mask or a levels byte (R56, R70, R74, R77).
Bit `p` belongs to port pin `p`, bit 0 the least significant (R53). -/
abbrev Byte := BitVec 8

/-- A pin index, a 3-bit unsigned number 0 to 7 (R22). -/
abbrev Pin := BitVec 3

/-- A 16-bit operation word, format HC or PT (R79, R80, R81). -/
abbrev OpWord := BitVec 16

/-- A 4-bit operation code, bits 15 to 12 of an operation word (R79). -/
abbrev OpCode := BitVec 4

/-- A 96-element array of levels, element `i` in bit `i` (R25, R26, R28, R81).
Its length is part of its type, so no operation can resize it (R28). -/
abbrev Bits96 := BitVec 96

/-- The value the port returns to OPEN: opaque to SBBS, which passes it on and never inspects it (R29). -/
abbrev Handle := Nat

/-- The log target the host supplies: an opaque host value (R11, R81, R216). -/
abbrev LogTarget := Nat

end Sys2Proof
end

