-- ==== Sys2Proof/Config.lean ====
section
/-!
DEFINITION. What one SBBS fixes (R9), the parameters the spec leaves to a model (R11), and the answers
the external Digital I/O Port gives, which SBBS does not choose (R112, R122).
-/

namespace Sys2Proof

/-- A status the port returns (R30): a code, and the side of the predicate `isOk` the code is on.
The spec leaves both the values and the predicate open (R11, 92 D8); the 32-bit width is its reference
choice. Carrying the side in the status lets every claim range over every such predicate (assumption 1). -/
structure Status where
  code : BitVec 32
  ok : Bool
deriving DecidableEq, Repr, Inhabited

/-- The predicate `isOk` of R30, the only thing that decides whether an operation failed (R202). -/
abbrev Status.isOk (s : Status) : Bool := s.ok

/-- The mode operand of SETMODE: the source's `enum` has the one value `async_bitbang` (R76). -/
inductive PortMode where
  | asyncBitbang
deriving DecidableEq, Repr, Inhabited

/-- What the Digital I/O Port holds outside SBBS (R36): the open handle, the I/O mask (bit = 1 means
output, R74), the mode, and the output latch OUTLATCH, the last register byte it applied to the pins.
The instantaneous pin levels are no field: they are the free byte `PortAnswer.levels` of each READ (R122). -/
structure Port where
  openHandle : Option Handle
  mask : Byte
  mode : Option PortMode
  outLatch : Byte
deriving DecidableEq, Repr, Inhabited

/-- One answer of the port to one operation (R16, R112). Every part is a free input of the step; an
operation uses the parts that its primitive returns and the rest play no part in it. -/
structure PortAnswer where
  /-- The handle OPEN returns, meaningful or not (R113, R114). -/
  handle : Handle
  /-- The status every primitive returns (R111). -/
  status : Status
  /-- The `bytes_written` of WRITE, which SBBS ignores (R118). -/
  bytesWritten : Nat
  /-- The levels byte READ returns (R121, R122). -/
  levels : Byte
  /-- Whether a WRITE whose status is not ok reached the output latch all the same (R119, 93 U9). -/
  applied : Bool
  /-- What the port holds after an operation whose effect on the port no source gives (R115, R233, 93 U16):
  OPEN, RESET, SETMODE and CLOSE, apart from the fields those set when their status is ok. -/
  port : Port
deriving DecidableEq, Repr, Inhabited

namespace Config

/-- `N_BITS`: the length of the Pattern Array and of the Captured Array (R9). -/
abbrev nBits : Nat := 96

/-- `N_PASSES`: passes per RUN (R9). -/
abbrev nPasses : Nat := 2

/-- `REG_WIDTH`: bits in a register byte (R9). -/
abbrev regWidth : Nat := 8

/-- The number of port operations of one pass (R163). -/
abbrev passLength : Nat := 388

/-- The number of port operations of one RUN, the positions `k = 0 .. 781` (R160). -/
abbrev scheduleLength : Nat := 782

/-- `CAPTURE_INIT` (R11, R27): any 96-bit value, so no proof can see which (assumption 2). -/
opaque captureInit : Bits96

/-- `MODE_ASYNC_BITBANG` (R11, R76): the numeric value of the mode at the port, which no source gives
(assumption 3). -/
opaque modeAsyncBitbang : Nat

/-- `SETTLE_DELAY` (R11, R240): a non-negative duration whose unit and value no source gives (assumption 4). -/
opaque settleDelay : Nat

/-- The port's answer to the `n`-th operation for which the state holds no planned answer: a free
input (R112, R122, assumption 5). -/
opaque portAnswer : Nat → PortAnswer

end Config

end Sys2Proof
end

