-- ==== Sys2Proof/Syntax.lean ====
section
/-!
DEFINITION. The operations of SBBS: one constructor for each of the 19 rows of spec/opcode_table.json
(R3): three host operations (R81), six port operations (R80), ten schedule steps (R150 to R159).
-/

namespace Sys2Proof

/-- An operation of SBBS. The schedule steps carry the pass `m` and the bit index `i` as R161 writes
them; the register byte of a step is no operand, it is computed from the session (R70). -/
inductive Instr where
  /-- RUN (R140): four pin indices, the pattern, the log target. -/
  | run (cs ck dout din : Pin) (pattern : Bits96) (log : LogTarget)
  /-- ENCODE (R100): three pin indices and three levels. -/
  | encode (cs ck dout : Pin) (csLevel ckLevel doutLevel : Bool)
  /-- VERIFY (R180): the written and the read array. -/
  | verify (written read : Bits96)
  /-- OPEN (R113). -/
  | openPort
  /-- RESET (R115). -/
  | resetPort
  /-- SETMODE (R116): the I/O mask; the mode is always `async_bitbang` (R76). -/
  | setMode (mask : Byte)
  /-- WRITE (R117): the register byte. -/
  | write (rb : Byte)
  /-- READ (R121): the data byte of the trace record, which records the levels answered (R80) and is no
  operand of the transfer, whose one operand is the handle. -/
  | read (lv : Byte)
  /-- CLOSE (R124). -/
  | closePort
  /-- WAKE_LO (R150). -/
  | wakeLo
  /-- WAKE_HI (R151). -/
  | wakeHi
  /-- PASS_START of pass `m` (R152). -/
  | passStart (m : Fin 2)
  /-- PRESENT(i) of pass `m` (R153). -/
  | present (m : Fin 2) (i : Fin 96)
  /-- RISE(i) of pass `m` (R154). -/
  | rise (m : Fin 2) (i : Fin 96)
  /-- FALL(i) of pass `m` (R155). -/
  | fall (m : Fin 2) (i : Fin 96)
  /-- SAMPLE(i) of pass `m` (R156). -/
  | sample (m : Fin 2) (i : Fin 96)
  /-- LATCH_HI1 of pass `m` (R157). -/
  | latchHi1 (m : Fin 2)
  /-- LATCH_LO of pass `m` (R158). -/
  | latchLo (m : Fin 2)
  /-- LATCH_HI2 of pass `m` (R159). -/
  | latchHi2 (m : Fin 2)
deriving DecidableEq, Repr

/-- A pin assignment, the four pin-index registers together (R22). -/
structure Pins where
  cs : Pin
  ck : Pin
  dout : Pin
  din : Pin
deriving DecidableEq, Repr

/-- A port operation with the operands SBBS chooses for it, apart from the handle (R16). -/
inductive PortOp where
  | openPort
  | resetPort
  | setMode (mask : Byte) (mode : PortMode)
  | write (rb : Byte)
  | read
  | closePort
deriving DecidableEq, Repr

/-- The six error kinds, one per port operation (R200). -/
inductive ErrorKind where
  | deviceOpenFailed
  | deviceResetFailed
  | modeConfigFailed
  | writeFailed
  | readFailed
  | deviceCloseFailed
deriving DecidableEq, Repr

/-- The reasons for which SBBS refuses a host operation (R210 to R213). A refusal of SBBS is an answer to
the host, after which the machine goes on; it is not the model's own `Machine.Refusal`. -/
inductive HostRefusal where
  | reservedCode
  | busy
  | pinConfigInvalid
deriving DecidableEq, Repr

end Sys2Proof
end

