-- ==== Sys2Proof/Machine/Operands.lean ====
section
/-!
DEFINITION. The operand forms of SBBS (spec/30_encoding.md): the register byte RB, the I/O mask, the
levels byte, array elements, the pin configuration field PINCFG, the legality of pins, and the codes of the port
operations, errors and refusals.
-/

namespace Sys2Proof

/-- `b[p] <- v` on a byte (R14, R100). -/
def setBit (b : Byte) (p : Pin) (v : Bool) : Byte :=
  if v then b ||| (1#8 <<< p.toNat) else b &&& ~~~(1#8 <<< p.toNat)

/-- `b[p]` (R14, R53). -/
def bitAt (b : Byte) (p : Pin) : Bool := b.getLsbD p.toNat

/-- ENCODE's byte, by the pseudocode of R100: format RB of R70. -/
def encodeByte (csPin ckPin doutPin : Pin) (cs ck dout : Bool) : Byte :=
  setBit (setBit (setBit 0#8 csPin cs) ckPin ck) doutPin dout

/-- `enc(cs, ck, dout)` with a session's pin assignment (R18). `PIN_DIN` plays no part (R104). -/
def Pins.enc (p : Pins) (cs ck dout : Bool) : Byte := encodeByte p.cs p.ck p.dout cs ck dout

/-- The four pin indices are pairwise distinct (R24). -/
def distinct4 (cs ck dout din : Pin) : Bool :=
  cs != ck && cs != dout && cs != din && ck != dout && ck != din && dout != din

/-- The three driven pin indices are pairwise distinct (R84, R102). -/
def distinct3 (cs ck dout : Pin) : Bool :=
  cs != ck && cs != dout && ck != dout

/-- A legal pin assignment (R24). -/
def Pins.legal (p : Pins) : Bool := distinct4 p.cs p.ck p.dout p.din

/-- Format MASK: `0xFF ^ (1 << PIN_DIN)`, every pin but DIN an output (R74). -/
def ioMask (din : Pin) : Byte := 0xFF#8 ^^^ (1#8 <<< din.toNat)

/-- The one field SBBS decodes of a levels byte: `din = LV[PIN_DIN]` (R77). -/
def dinLevel (lv : Byte) (din : Pin) : Bool := bitAt lv din

/-- `X[i]`: element `i` of a 96-element array (R15, R81). -/
def elem (x : Bits96) (i : Fin 96) : Bool := x.getLsbD i.val

/-- `C[i] <- v` (R15). -/
def setElem (x : Bits96) (i : Fin 96) (v : Bool) : Bits96 :=
  if v then x ||| (1#96 <<< i.val) else x &&& ~~~(1#96 <<< i.val)

/-- Element 95, the level DOUT holds through the latch synchronizer (R157 to R159). -/
def lastElem (x : Bits96) : Bool := elem x 95

/-- Format PINCFG (R78): `{PIN_DIN, PIN_DOUT, PIN_CK, PIN_CS}`. -/
def packPins (p : Pins) : BitVec 12 := p.din ++ p.dout ++ p.ck ++ p.cs

/-- The pin assignment a PINCFG field holds (R78). -/
def unpackPins (c : BitVec 12) : Pins where
  cs := c.extractLsb' 0 3
  ck := c.extractLsb' 3 3
  dout := c.extractLsb' 6 3
  din := c.extractLsb' 9 3

/-- The operation code of a port operation (R80). -/
def PortOp.code : PortOp → OpCode
  | .openPort => 0x1#4
  | .resetPort => 0x2#4
  | .setMode _ _ => 0x3#4
  | .write _ => 0x4#4
  | .read => 0x5#4
  | .closePort => 0x6#4

/-- The error kind a port operation raises when its status is not ok (R200). -/
def PortOp.errorKind : PortOp → ErrorKind
  | .openPort => .deviceOpenFailed
  | .resetPort => .deviceResetFailed
  | .setMode _ _ => .modeConfigFailed
  | .write _ => .writeFailed
  | .read => .readFailed
  | .closePort => .deviceCloseFailed

/-- The numeric code of an error kind (R200). -/
def ErrorKind.code : ErrorKind → Nat
  | .deviceOpenFailed => 1
  | .deviceResetFailed => 2
  | .modeConfigFailed => 3
  | .writeFailed => 4
  | .readFailed => 5
  | .deviceCloseFailed => 6

/-- The code of a refusal reason (R213). -/
def HostRefusal.code : HostRefusal → Nat
  | .reservedCode => 0x10
  | .busy => 0x11
  | .pinConfigInvalid => 0x12

/-- The numeric value SETMODE passes for a mode (R76). -/
def modeValue : PortMode → Nat
  | .asyncBitbang => Config.modeAsyncBitbang

/-- A PT record word: `[15:12] op`, `[11:8] 0000`, `[7:0] data` (R80). -/
def ptWord (code : OpCode) (data : Byte) : OpWord := code ++ 0#4 ++ data

/-- The data byte of the PT record of an operation as answered (R80): the mask, the byte written, or the
levels answered, which is `0x00` when a READ failed. -/
def ptData (op : PortOp) (a : PortAnswer) : Byte :=
  match op with
  | .openPort => 0x00#8
  | .resetPort => 0x00#8
  | .setMode mask _ => mask
  | .write rb => rb
  | .read => if a.status.isOk then a.levels else 0x00#8
  | .closePort => 0x00#8

/-- The level the port drives on a pin: bit `p` of its output latch where the mask makes pin `p` an
output, and nothing on an input pin (R74, R119). -/
def drivenLevel (p : Port) (pin : Pin) : Option Bool :=
  if bitAt p.mask pin then some (bitAt p.outLatch pin) else none

end Sys2Proof
end

