-- ==== Sys2Proof/Decode.lean ====
section
/-!
DEFINITION. Decoding and encoding. Three decoders, one for each place where an operation of SBBS appears:
host command words (HC, R81), port trace words (PT, R80), and schedule positions (R161), which name the
ten schedule steps that a word alone cannot tell apart. The encoder follows them.
-/

namespace Sys2Proof

/-- Why a word names no operation on its interface. -/
inductive Reject where
  /-- A host command word with a reserved code 0x0, 0x7 or 0xB to 0xF (R83). -/
  | reservedCode
  /-- A VERIFY word with any of bits 11 to 0 set (R83). -/
  | verifyBitsSet
  /-- A port operation code 0x1 to 0x6 on the host interface, where R79 places none (assumption 8). -/
  | portCodeOnHost
  /-- A trace word whose code is none of 0x1 to 0x6 (R85). -/
  | notPortCode
  /-- A trace word with any of bits 11 to 8 set (R85). -/
  | recordBitsSet
  /-- An OPEN, RESET or CLOSE record whose data byte is not `0x00` (R80, assumption 25). -/
  | recordDataSet
  /-- A trace word whose code is not that of the step at its schedule position (R160, R171). -/
  | notThisStep
deriving DecidableEq, Repr

/-- Bits 15 to 12 of an operation word (R79). -/
def opField (w : OpWord) : OpCode := w.extractLsb' 12 4

/-- Bits 11 to 8 of a PT record, which are zero (R80). -/
def zeroField (w : OpWord) : BitVec 4 := w.extractLsb' 8 4

/-- Bits 7 to 0 of a PT record (R80). -/
def dataField (w : OpWord) : Byte := w.extractLsb' 0 8

/-- Bits 11 to 0 of a host command word (R81). -/
def argField (w : OpWord) : BitVec 12 := w.extractLsb' 0 12

/-- The codes of the port operations, 0x1 to 0x6 (R79). -/
def isPortCode (c : OpCode) : Bool := 1 ≤ c.toNat && c.toNat ≤ 6

/-- How many 96-bit operands follow a host command word with this code (R81, R87). -/
def operandCount (c : OpCode) : Nat :=
  if c = 0x8#4 then 1 else if c = 0xA#4 then 2 else 0

/-- A RUN command: PINCFG in bits 11 to 0, the pattern in operand 0 (R78, R81). -/
def decodeRun (w : OpWord) (pattern : Bits96) (log : LogTarget) : Instr :=
  let p := unpackPins (argField w)
  .run p.cs p.ck p.dout p.din pattern log

/-- An ENCODE command: `[2:0]` CS pin, `[5:3]` CK pin, `[8:6]` DOUT pin, `[9]` cs, `[10]` ck, `[11]` dout (R81). -/
def decodeEncode (w : OpWord) : Instr :=
  .encode (w.extractLsb' 0 3) (w.extractLsb' 3 3) (w.extractLsb' 6 3)
    (w.getLsbD 9) (w.getLsbD 10) (w.getLsbD 11)

/-- A host command word with its operands (R79, R81, R83). An operand its code does not take is not read (R87). -/
def decodeHost (w : OpWord) (operand0 operand1 : Bits96) (log : LogTarget) : Except Reject Instr :=
  if opField w = 0x8#4 then .ok (decodeRun w operand0 log)
  else if opField w = 0x9#4 then .ok (decodeEncode w)
  else if opField w = 0xA#4 then
    if argField w = 0 then .ok (.verify operand0 operand1) else .error .verifyBitsSet
  else if isPortCode (opField w) then .error .portCodeOnHost
  else .error .reservedCode

/-- A port operation from its PT word (R80, R85; for the data byte of OPEN, RESET and CLOSE, assumption 25). -/
def decodePort (w : OpWord) : Except Reject Instr :=
  if isPortCode (opField w) = false then .error .notPortCode
  else if zeroField w ≠ 0 then .error .recordBitsSet
  else if opField w = 0x3#4 then .ok (.setMode (dataField w))
  else if opField w = 0x4#4 then .ok (.write (dataField w))
  else if opField w = 0x5#4 then .ok (.read (dataField w))
  else if dataField w ≠ 0 then .error .recordDataSet
  else if opField w = 0x1#4 then .ok .openPort
  else if opField w = 0x2#4 then .ok .resetPort
  else .ok .closePort

/-- The step of one iteration: offset 0 to 3 of R161's `(r - 1) mod 4`. -/
def bitStep (m : Fin 2) (i : Fin 96) (phase : Nat) : Instr :=
  if phase = 0 then .present m i
  else if phase = 1 then .rise m i
  else if phase = 2 then .fall m i
  else .sample m i

/-- The step at offset `r` of pass `m` (R161). -/
def passStep (m : Fin 2) (r : Nat) : Instr :=
  if r = 0 then .passStart m
  else if r ≤ 384 then bitStep m (Fin.ofNat 96 ((r - 1) / 4)) ((r - 1) % 4)
  else if r = 385 then .latchHi1 m
  else if r = 386 then .latchLo m
  else .latchHi2 m

/-- The step at schedule position `k`, total on 0 to 781 (R161). The mask of SETMODE comes from `PIN_DIN` (R116). -/
def decodePosition (din : Pin) (k : Nat) : Option Instr :=
  if k = 0 then some .openPort
  else if k = 1 then some .resetPort
  else if k = 2 then some (.setMode (ioMask din))
  else if k = 3 then some .wakeLo
  else if k = 4 then some .wakeHi
  else if k = 781 then some .closePort
  else if k < 781 then some (passStep (Fin.ofNat 2 ((k - 5) / 388)) ((k - 5) % 388))
  else none

/-! ### The encoder -/

/-- The words of an operation: its 16-bit word, the 96-bit operands that follow it, zero where its code takes
none (R81, R87), and the log target passed beside a RUN word (R81). -/
structure Encoded where
  word : OpWord
  operand0 : Bits96
  operand1 : Bits96
  log : LogTarget
deriving DecidableEq, Repr

/-- A word without operands (R87). -/
def bareWord (w : OpWord) : Encoded := { word := w, operand0 := 0, operand1 := 0, log := 0 }

/-- The first position of pass `m`: `b_m = 5 + 388*m` (R152, R160). -/
def passBase (m : Fin 2) : Nat := 5 + 388 * m.val

/-- The schedule position of an operation (R160), for the steps and for the port operations that stand at
one position only; host operations, WRITE and READ have none of their own. -/
def position : Instr → Option Nat
  | .run _ _ _ _ _ _ => none
  | .encode _ _ _ _ _ _ => none
  | .verify _ _ => none
  | .openPort => some 0
  | .resetPort => some 1
  | .setMode _ => some 2
  | .write _ => none
  | .read _ => none
  | .closePort => some 781
  | .wakeLo => some 3
  | .wakeHi => some 4
  | .passStart m => some (passBase m)
  | .present m i => some (passBase m + 1 + 4 * i.val)
  | .rise m i => some (passBase m + 2 + 4 * i.val)
  | .fall m i => some (passBase m + 3 + 4 * i.val)
  | .sample m i => some (passBase m + 4 + 4 * i.val)
  | .latchHi1 m => some (passBase m + 385)
  | .latchLo m => some (passBase m + 386)
  | .latchHi2 m => some (passBase m + 387)

/-- The words of an operation (R80, R81, R150 to R159). The word of a schedule step is that of the port
operation it issues, so it depends on the session's pin assignment `p` and pattern `x`; the word of a SAMPLE
before its answer has data `0x00`. -/
def encode (p : Pins) (x : Bits96) : Instr → Encoded
  | .run cs ck dout din pattern log =>
    { word := 0x8#4 ++ packPins ⟨cs, ck, dout, din⟩, operand0 := pattern, operand1 := 0, log := log }
  | .encode cs ck dout csLevel ckLevel doutLevel =>
    bareWord (0x9#4 ++ BitVec.ofBool doutLevel ++ BitVec.ofBool ckLevel ++ BitVec.ofBool csLevel ++ dout ++ ck ++ cs)
  | .verify written read => { word := 0xA000#16, operand0 := written, operand1 := read, log := 0 }
  | .openPort => bareWord (ptWord 0x1#4 0x00#8)
  | .resetPort => bareWord (ptWord 0x2#4 0x00#8)
  | .setMode mask => bareWord (ptWord 0x3#4 mask)
  | .write rb => bareWord (ptWord 0x4#4 rb)
  | .read lv => bareWord (ptWord 0x5#4 lv)
  | .closePort => bareWord (ptWord 0x6#4 0x00#8)
  | .wakeLo => bareWord (ptWord 0x4#4 (p.enc false false false))
  | .wakeHi => bareWord (ptWord 0x4#4 (p.enc true false false))
  | .passStart _ => bareWord (ptWord 0x4#4 (p.enc false false false))
  | .present _ i => bareWord (ptWord 0x4#4 (p.enc false false (elem x i)))
  | .rise _ i => bareWord (ptWord 0x4#4 (p.enc false true (elem x i)))
  | .fall _ i => bareWord (ptWord 0x4#4 (p.enc false false (elem x i)))
  | .sample _ _ => bareWord (ptWord 0x5#4 0x00#8)
  | .latchHi1 _ => bareWord (ptWord 0x4#4 (p.enc true false (lastElem x)))
  | .latchLo _ => bareWord (ptWord 0x4#4 (p.enc false false (lastElem x)))
  | .latchHi2 _ => bareWord (ptWord 0x4#4 (p.enc true false (lastElem x)))

/-- The operation a trace record stands for in a session with pin assignment `p` and pattern `x`, told by its
position `k` and its word `w` (R80, R160, R161, R171): the step at `k`, where `w` is the word that step issues; a
READ record at a SAMPLE position may carry any levels (R122). -/
def decodeRecordAt (p : Pins) (x : Bits96) (k : Nat) (w : OpWord) : Except Reject Instr :=
  match decodePort w, decodePosition p.din k with
  | .error e, _ => .error e
  | .ok _, none => .error .notThisStep
  | .ok (.read _), some (.sample m i) => .ok (.sample m i)
  | .ok _, some step => if w = (encode p x step).word then .ok step else .error .notThisStep

/-- The operation of a word and the operands that follow it: a host command where its code is no port
operation's, else a port operation (R79). -/
def decodeWord (e : Encoded) : Except Reject Instr :=
  if isPortCode (opField e.word) then decodePort e.word
  else decodeHost e.word e.operand0 e.operand1 e.log

/-- A number as the opcode table numbers an instruction's bits: the word in bits 15 to 0, then the operands. -/
def encodedOfNat (v : Nat) : Encoded where
  word := BitVec.ofNat 16 v
  operand0 := BitVec.ofNat 96 (v / 2 ^ 16)
  operand1 := BitVec.ofNat 96 (v / 2 ^ 112)
  log := 0

/-- The operation this decoder reads from an opcode-table row's bits; every bit above `nbits` is 0. A word of
WRITE or READ decodes to that port operation: which schedule step issued it, its position says (`decodeRecordAt`). -/
def decodeTableWord (nbits w : Nat) : Option Instr :=
  match decodeWord (encodedOfNat (w % 2 ^ nbits)) with
  | .ok i => some i
  | .error _ => none

end Sys2Proof
end

