-- ==== Sys2Proof/Machine/Flags.lean ====
section
/-!
DEFINITION. The one-bit results of SBBS. It has no condition codes and no sticky error flag (R35): the only
computed bit is the verdict of VERIFY, which inside RUN becomes MATCH (R31).
-/

namespace Sys2Proof

/-- `VERIFY(W, R)` by the pseudocode of R180: `v` starts at 1 and every differing element sets it to 0. -/
def verdict (w r : Bits96) : Bool :=
  (List.finRange 96).foldl (fun v i => if elem w i != elem r i then false else v) true

end Sys2Proof
end

