-- ==== Sys2Proof/WellFormed.lean ====
section
/-!
DEFINITION. Which operations are legal (R24, R84): the pin indices of a RUN and of an ENCODE are pairwise
distinct. The range 0 to 7 of a pin and the ranges of `m` and `i` hold by their types (R22, R34).
-/

namespace Sys2Proof

/-- An operation that is not illegal by R84. Every other encoding names a legal operation (R86). -/
def Instr.wellFormed : Instr → Bool
  | .run cs ck dout din _ _ => distinct4 cs ck dout din
  | .encode cs ck dout _ _ _ => distinct3 cs ck dout
  | .verify _ _ => true
  | .openPort => true
  | .resetPort => true
  | .setMode _ => true
  | .write _ => true
  | .read _ => true
  | .closePort => true
  | .wakeLo => true
  | .wakeHi => true
  | .passStart _ => true
  | .present _ _ => true
  | .rise _ _ => true
  | .fall _ _ => true
  | .sample _ _ => true
  | .latchHi1 _ => true
  | .latchLo _ => true
  | .latchHi2 _ => true

end Sys2Proof
end

