-- ==== Sys2Proof/Machine/State.lean ====
section
/-!
DEFINITION. The state of SBBS (spec/10_state.md), of the external port it drives (R36), and of the model's own
inputs and outputs, all plain data; the reasons a step can stop; and the state after power-up.
-/

namespace Sys2Proof.Machine

/-- The sequencer's phase (R32). -/
inductive Phase where
  | idle
  | sched
  | verify
deriving DecidableEq, Repr

/-- The Sequencer Session (R20): every register of SBBS that exists only while a session does (R40). A field
of type `Option` is one to which the spec itself gives no value at first (R29, R30, R31, R40). -/
structure Session where
  /-- `PIN_CS`, `PIN_CK`, `PIN_DOUT`, `PIN_DIN` (R22). -/
  pins : Pins
  /-- `PATTERN` (R25). -/
  pattern : Bits96
  /-- `CAPTURE` (R26). -/
  capture : Bits96
  /-- `HANDLE` (R29). -/
  handle : Option Handle
  /-- `LAST_STATUS` (R30). -/
  lastStatus : Option Status
  /-- `MATCH` (R31). -/
  matched : Option Bool
  /-- `LOG`, the session's log target (R141, R216). -/
  log : LogTarget
  /-- The schedule position, 0 to 781 (R33). -/
  k : Nat
deriving DecidableEq, Repr

/-- A diagnostic event (R111, R182): a failed port operation with its step identifier and status (R201), or
the trace of a comparison. -/
inductive Event where
  | error (kind : ErrorKind) (k : Nat) (status : Status)
  | trace (written read : Bits96) (verdict : Bool)
deriving DecidableEq, Repr

/-- One entry of the diagnostic output (R38): the event and the log it goes to, the session's own (R217), or
none for a VERIFY the host calls on its own, which has no log target (assumption 10). -/
structure DiagLine where
  log : Option LogTarget
  event : Event
deriving DecidableEq, Repr

/-- One port operation as issued and answered (R80): its PT word, and beside it what R80 leaves out of the word. -/
structure PortRecord where
  /-- The schedule position the operation was issued at. -/
  k : Nat
  /-- The operation with the operands SBBS chose. -/
  op : PortOp
  /-- The handle operand, none for OPEN (R16). -/
  handle : Option Handle
  /-- The PT record (R80). -/
  word : OpWord
  /-- The status answered. -/
  status : Status
  /-- `bytes_written`, for a WRITE (R80, R118). -/
  bytesWritten : Option Nat
  /-- The numeric mode value, for a SETMODE (R76). -/
  mode : Option Nat
  /-- The least idle time since the operation before it (R240). -/
  settle : Nat
deriving DecidableEq, Repr

/-- A host command as the host issues it (R81): the word, its operands and the log target beside it. -/
structure HostRequest where
  /-- How many steps of the sequencer pass before the host issues it: the model's own, it says who moves
  next (assumption 7). -/
  wait : Nat
  word : OpWord
  operand0 : Bits96
  operand1 : Bits96
  log : LogTarget
deriving DecidableEq, Repr

/-- What SBBS returns to the host (R82, R213). -/
inductive Reply where
  | refused (reason : HostRefusal)
  | byte (rb : Byte)
  | verdict (v : Bool)
  | run (captured : Bits96) (matched : Bool)
deriving DecidableEq, Repr

/-- The whole machine. `phase` and `session` are SBBS's own state; `port` is the external port's (R36);
`trace`, `diag` and `replies` are what SBBS has sent to the port, to the log sink and to the host, oldest
first; `portPlan` and `hostIn` are what the port and the host will send it; the rest is the model's own. -/
structure State where
  phase : Phase
  session : Option Session
  port : Port
  /-- The PT records of every operation issued so far (R80, assumption 26). -/
  trace : List PortRecord
  /-- The diagnostic output (R38). -/
  diag : List DiagLine
  /-- What the host has been answered (R82, assumption 15). -/
  replies : List Reply
  /-- The port's answers that are already settled, next first; `none` is a port that never answers (R110).
  When the list is empty the next answer is a free value of `Config.portAnswer` (assumption 5). -/
  portPlan : List (Option PortAnswer)
  /-- How many free answers have been taken: the model's own counter (assumption 5). -/
  answersTaken : Nat
  /-- The commands the host has yet to issue, next first (assumption 7). -/
  hostIn : List HostRequest
  /-- A PT word to be run on its own, by which the model runs one row of the opcode table: none at reset,
  and no step ever sets it (assumption 6). -/
  portWord : Option OpWord
  /-- The least idle time owed before the next port operation, after a WRITE (R240, assumption 4). -/
  settleDue : Nat
deriving DecidableEq, Repr

/-- Why the machine stops. -/
inductive Fault where
  /-- Raised by a port operation that the port never answers: the sequencer waits for ever, with no timeout
  of its own (R110, R246, 93 U11: `stuck`). Safe: the hardware does nothing more either. -/
  | portNeverAnswers
deriving DecidableEq, Repr

/-- Why the model gives a step no meaning. -/
inductive Refusal where
  /-- Raised by `exec` for an operation the model does not cover; no arm raises it. Safe: nothing can be
  proved of the operation. -/
  | notModelled (mnemonic : String)
  /-- Raised by a port operation, a schedule step or the VERIFY phase in a state without the session it belongs
  to: the spec gives the session's registers no value there and no rule reads them (R40). Safe. -/
  | noSession
  /-- Raised by the sequencer at a schedule position above 781, where R160 places no operation. Safe: no run
  reaches one (R33). -/
  | offSchedule
  /-- Raised by a host command word with the code of a port operation, which R79 places on the port interface
  only and to which the spec gives neither a meaning nor a refusal reason. Safe. -/
  | portCodeOnHost
  /-- Raised by `portWord` when it holds no PT record of a port operation (R85). Safe. -/
  | notARecord
deriving DecidableEq, Repr

/-- The machine at power-up (R40, R230): phase `IDLE`, no session, nothing sent, nothing waiting. The port
is outside SBBS and no source gives its state; its fields are assumption 9. -/
def State.reset : State where
  phase := .idle
  session := none
  port := { openHandle := none, mask := 0x00#8, mode := none, outLatch := 0x00#8 }
  trace := []
  diag := []
  replies := []
  portPlan := []
  answersTaken := 0
  hostIn := []
  portWord := none
  settleDue := 0

end Sys2Proof.Machine
end

