-- ==== Sys2Proof/Machine/Ops.lean ====
section
/-!
DEFINITION. The shared operations: one port operation issued and answered (R110, R111), raising an error
(R203, this machine's only exception, which transfers no control), answering the host, refusing a host
operation (R210), and creating and destroying a session (R141, R142).
-/

namespace Sys2Proof.Machine

/-- What a step answers. -/
abbrev Result := Host.Outcome State Fault Refusal

/-- A reply to the host is added to those sent before. -/
def State.reply (s : State) (r : Reply) : State := { s with replies := s.replies ++ [r] }

/-- A refused host operation has no effect: SBBS only returns the reason (R210, R213). -/
def State.refuse (s : State) (reason : HostRefusal) : State := s.reply (.refused reason)

/-- An entry is appended to the diagnostic output (R38, R216). -/
def State.appendDiag (s : State) (lines : List DiagLine) : State := { s with diag := s.diag ++ lines }

/-- `raise <Error>(k, s)` (R17, R203): one event for a status that is not ok, none for one that is (R111, R204). -/
def raised (op : PortOp) (ss : Session) (a : PortAnswer) : List DiagLine :=
  if a.status.isOk then []
  else [{ log := some ss.log, event := .error op.errorKind ss.k a.status }]

/-- The port's next answer, taken from the plan where it holds one, else a free value (R112); `none` when
the port never answers (R110). -/
def takeAnswer (s : State) : Option (PortAnswer × State) :=
  match s.portPlan with
  | some a :: rest => some (a, { s with portPlan := rest })
  | none :: _ => none
  | [] => some (Config.portAnswer s.answersTaken, { s with answersTaken := s.answersTaken + 1 })

/-- What the port holds after an operation, as far as the spec says (R36): an ok OPEN opens the handle it
returned, an ok SETMODE sets mask and mode (R116), an ok WRITE sets the output latch and a failed one may or
may not (R119), a READ leaves the port as it is (R59), an ok CLOSE closes the handle; the rest is free (R233). -/
def portAfter (op : PortOp) (a : PortAnswer) (p : Port) : Port :=
  match op with
  | .openPort => if a.status.isOk then { a.port with openHandle := some a.handle } else a.port
  | .resetPort => a.port
  | .setMode mask mode => if a.status.isOk then { a.port with mask := mask, mode := some mode } else a.port
  | .write rb => if a.status.isOk || a.applied then { p with outLatch := rb } else p
  | .read => p
  | .closePort => if a.status.isOk then { a.port with openHandle := none } else a.port

/-- The idle time owed after an operation: `SETTLE_DELAY` after a WRITE, none after any other (R240). -/
def settleAfter (op : PortOp) : Nat :=
  match op with
  | .openPort => 0
  | .resetPort => 0
  | .setMode _ _ => 0
  | .write _ => Config.settleDelay
  | .read => 0
  | .closePort => 0

/-- The record of an operation issued by session `ss` and answered `a` (R80). -/
def recordOf (op : PortOp) (ss : Session) (a : PortAnswer) (settle : Nat) : PortRecord where
  k := ss.k
  op := op
  handle := match op with
    | .openPort => none
    | .resetPort => ss.handle
    | .setMode _ _ => ss.handle
    | .write _ => ss.handle
    | .read => ss.handle
    | .closePort => ss.handle
  word := ptWord op.code (ptData op a)
  status := a.status
  bytesWritten := match op with
    | .openPort => none
    | .resetPort => none
    | .setMode _ _ => none
    | .write _ => some a.bytesWritten
    | .read => none
    | .closePort => none
  mode := match op with
    | .openPort => none
    | .resetPort => none
    | .setMode _ mode => some (modeValue mode)
    | .write _ => none
    | .read => none
    | .closePort => none
  settle := settle

/-- The session's registers after any operation but CLOSE: the status in `LAST_STATUS` and the position
advanced by one, whatever the status is (R33, R111). -/
def Session.advance (ss : Session) (a : PortAnswer) : Session :=
  { ss with lastStatus := some a.status, k := ss.k + 1 }

/-- The session's registers after OPEN: `HANDLE` takes the handle too, ok or not (R113). -/
def Session.advanceOpen (ss : Session) (a : PortAnswer) : Session :=
  { ss.advance a with handle := some a.handle }

/-- The session's registers after SAMPLE: `C[i] <- lv[PIN_DIN]` when the status is ok, and `C[i]` unchanged when
it is not (R156). -/
def Session.advanceSample (ss : Session) (i : Fin 96) (a : PortAnswer) : Session :=
  if a.status.isOk then
    { ss.advance a with capture := setElem ss.capture i (dinLevel a.levels ss.pins.din) }
  else ss.advance a

/-- The session's registers after CLOSE: `LAST_STATUS` only (R124). -/
def Session.closed (ss : Session) (a : PortAnswer) : Session :=
  { ss with lastStatus := some a.status }

/-- The machine after operation `op`, issued by session `ss`, was answered `a`: the sequencer is left with
session `ss'` in phase `phase'`, the port as `portAfter` says, the record and the error event appended. -/
def State.answered (s : State) (op : PortOp) (ss : Session) (a : PortAnswer) (ss' : Session) (phase' : Phase) :
    State :=
  { s with
    phase := phase'
    session := some ss'
    port := portAfter op a s.port
    trace := s.trace ++ [recordOf op ss a s.settleDue]
    diag := s.diag ++ raised op ss a
    settleDue := settleAfter op }

/-- One port operation, issued and answered (R57, R110, R111): the operation is read from the session, the
port answers it, and the session goes on as `next` says, in phase `phase'`. -/
def transact (op : Session → PortOp) (next : Session → PortAnswer → Session) (phase' : Phase) (s : State) : Result :=
  match s.phase, s.session with
  | .sched, some ss =>
    match takeAnswer s with
    | some (a, s1) => .next (s1.answered (op ss) ss a (next ss a) phase')
    | none => .fault .portNeverAnswers
  | _, _ => .refused .noSession

/-- A WRITE of the byte `rb` computes from the session (R117). -/
def writeByte (rb : Session → Byte) (s : State) : Result :=
  transact (fun ss => .write (rb ss)) Session.advance .sched s

/-- The session an accepted RUN creates (R141, R40 "at session creation"). -/
def freshSession (pins : Pins) (pattern : Bits96) (log : LogTarget) : Session where
  pins := pins
  pattern := pattern
  capture := Config.captureInit
  handle := none
  lastStatus := none
  matched := none
  log := log
  k := 0

/-- A session is created and the schedule begins (R141, R231). -/
def State.beginSession (s : State) (ss : Session) : State :=
  { s with phase := .sched, session := some ss }

/-- A session ends: the host gets the Captured Array and MATCH, and the session is destroyed (R142, R246). -/
def State.endSession (s : State) (captured : Bits96) (matched : Bool) : State :=
  { s with phase := .idle, session := none, replies := s.replies ++ [.run captured matched] }

end Sys2Proof.Machine
end

