-- ==== Sys2Proof/Machine/Encoder.lean ====
section
/-!
DEFINITION. The pin-state encoder as a host operation: ENCODE (spec/40_encoder.md).
-/

namespace Sys2Proof.Machine

/-- ENCODE (R100 to R102): the register byte is returned to the host, and no register of SBBS is read or
written; three pin indices that are not pairwise distinct are refused (R84, R210). -/
def execEncode (cs ck dout : Pin) (csLevel ckLevel doutLevel : Bool) (s : State) : Result :=
  if distinct3 cs ck dout then .next (s.reply (.byte (encodeByte cs ck dout csLevel ckLevel doutLevel)))
  else .next (s.refuse .pinConfigInvalid)

end Sys2Proof.Machine
end

