-- ==== Sys2Proof/Machine/PortOps.lean ====
section
/-!
DEFINITION. The six port operations (spec/41_port_ops.md), each one issued and answered (R110, R111).
-/

namespace Sys2Proof.Machine

/-- OPEN (R113, R114). -/
def execOpen (s : State) : Result :=
  transact (fun _ => .openPort) Session.advanceOpen .sched s

/-- RESET (R115). -/
def execReset (s : State) : Result :=
  transact (fun _ => .resetPort) Session.advance .sched s

/-- SETMODE (R116): mode `async_bitbang` (R76). -/
def execSetMode (mask : Byte) (s : State) : Result :=
  transact (fun _ => .setMode mask .asyncBitbang) Session.advance .sched s

/-- WRITE (R117 to R120). -/
def execWrite (rb : Byte) (s : State) : Result :=
  writeByte (fun _ => rb) s

/-- READ (R121): the port transfer on its own. Its one operand is the handle; the data byte of its record is
the port's answer (R80), so it takes no part in the transfer. What SAMPLE does with the levels is SAMPLE's (R156). -/
def execRead (_lv : Byte) (s : State) : Result :=
  transact (fun _ => .read) Session.advance .sched s

/-- CLOSE (R124): the phase becomes `VERIFY`. -/
def execClose (s : State) : Result :=
  transact (fun _ => .closePort) Session.closed .verify s

end Sys2Proof.Machine
end

