-- ==== Sys2Proof/Machine/Sequencer.lean ====
section
/-!
DEFINITION. The protocol sequencer (spec/42_sequencer.md): RUN, and the ten schedule steps.
-/

namespace Sys2Proof.Machine

/-- RUN (R140, R141): refused while a session exists (R212), then for a pin assignment that is not legal
(R210), in that order (R213); else it creates a session. The schedule and the result follow as further steps
of the machine (R142). -/
def execRun (cs ck dout din : Pin) (pattern : Bits96) (log : LogTarget) (s : State) : Result :=
  if s.phase != .idle then .next (s.refuse .busy)
  else if distinct4 cs ck dout din = false then .next (s.refuse .pinConfigInvalid)
  else .next (s.beginSession (freshSession ⟨cs, ck, dout, din⟩ pattern log))

/-- WAKE_LO (R150). -/
def execWakeLo (s : State) : Result :=
  writeByte (fun ss => ss.pins.enc false false false) s

/-- WAKE_HI (R151). -/
def execWakeHi (s : State) : Result :=
  writeByte (fun ss => ss.pins.enc true false false) s

/-- PASS_START (R152). -/
def execPassStart (_m : Fin 2) (s : State) : Result :=
  writeByte (fun ss => ss.pins.enc false false false) s

/-- PRESENT(i) (R153). -/
def execPresent (_m : Fin 2) (i : Fin 96) (s : State) : Result :=
  writeByte (fun ss => ss.pins.enc false false (elem ss.pattern i)) s

/-- RISE(i) (R154). -/
def execRise (_m : Fin 2) (i : Fin 96) (s : State) : Result :=
  writeByte (fun ss => ss.pins.enc false true (elem ss.pattern i)) s

/-- FALL(i) (R155). -/
def execFall (_m : Fin 2) (i : Fin 96) (s : State) : Result :=
  writeByte (fun ss => ss.pins.enc false false (elem ss.pattern i)) s

/-- SAMPLE(i) (R156). -/
def execSample (_m : Fin 2) (i : Fin 96) (s : State) : Result :=
  transact (fun _ => .read) (fun ss a => ss.advanceSample i a) .sched s

/-- LATCH_HI1 (R157). -/
def execLatchHi1 (_m : Fin 2) (s : State) : Result :=
  writeByte (fun ss => ss.pins.enc true false (lastElem ss.pattern)) s

/-- LATCH_LO (R158). -/
def execLatchLo (_m : Fin 2) (s : State) : Result :=
  writeByte (fun ss => ss.pins.enc false false (lastElem ss.pattern)) s

/-- LATCH_HI2 (R159). -/
def execLatchHi2 (_m : Fin 2) (s : State) : Result :=
  writeByte (fun ss => ss.pins.enc true false (lastElem ss.pattern)) s

end Sys2Proof.Machine
end

