-- ==== Sys2Proof/Machine/Verifier.lean ====
section
/-!
DEFINITION. The readback comparator (spec/43_verifier.md): VERIFY as a host operation, and the VERIFY phase
that ends a RUN (R142).
-/

namespace Sys2Proof.Machine

/-- `emit Trace(W, R, v)` (R180, R182). -/
def traceLine (log : Option LogTarget) (written read : Bits96) : DiagLine where
  log := log
  event := .trace written read (verdict written read)

/-- VERIFY (R180 to R184): the verdict goes to the host and the trace event to the diagnostic output; no
register of SBBS is read or written, and the operation is never Busy (R212). The event is appended at once, so one that
the host asks for during a session can precede later events of its schedule (R66 is read as RUN's own, assumption 27). -/
def execVerify (written read : Bits96) (s : State) : Result :=
  .next ((s.appendDiag [traceLine none written read]).reply (.verdict (verdict written read)))

/-- The VERIFY phase of a RUN (R142, R31): first `MATCH <- VERIFY(P, C)` with its trace event, then `(C, MATCH)`
to the host and phase `IDLE` (two steps, assumption 11). -/
def verifyPhase (s : State) : Result :=
  match s.session with
  | none => .refused .noSession
  | some ss =>
    match ss.matched with
    | none =>
      let v := verdict ss.pattern ss.capture
      .next { s.appendDiag [traceLine (some ss.log) ss.pattern ss.capture] with
        session := some { ss with matched := some v } }
    | some v => .next (s.endSession ss.capture v)

end Sys2Proof.Machine
end

