-- ==== Sys2Proof/Machine/Dispatch.lean ====
section
/-!
DEFINITION. The meaning of every operation: one arm per constructor of `Instr`.
-/

namespace Sys2Proof.Machine

def exec (i : Instr) (s : State) : Host.Outcome State Fault Refusal :=
  match i with
  | .run cs ck dout din pattern log => Sys2Proof.Machine.execRun cs ck dout din pattern log s
  | .encode cs ck dout csLevel ckLevel doutLevel => Sys2Proof.Machine.execEncode cs ck dout csLevel ckLevel doutLevel s
  | .verify written read => Sys2Proof.Machine.execVerify written read s
  | .openPort => Sys2Proof.Machine.execOpen s
  | .resetPort => Sys2Proof.Machine.execReset s
  | .setMode mask => Sys2Proof.Machine.execSetMode mask s
  | .write rb => Sys2Proof.Machine.execWrite rb s
  | .read lv => Sys2Proof.Machine.execRead lv s
  | .closePort => Sys2Proof.Machine.execClose s
  | .wakeLo => Sys2Proof.Machine.execWakeLo s
  | .wakeHi => Sys2Proof.Machine.execWakeHi s
  | .passStart m => Sys2Proof.Machine.execPassStart m s
  | .present m bit => Sys2Proof.Machine.execPresent m bit s
  | .rise m bit => Sys2Proof.Machine.execRise m bit s
  | .fall m bit => Sys2Proof.Machine.execFall m bit s
  | .sample m bit => Sys2Proof.Machine.execSample m bit s
  | .latchHi1 m => Sys2Proof.Machine.execLatchHi1 m s
  | .latchLo m => Sys2Proof.Machine.execLatchLo m s
  | .latchHi2 m => Sys2Proof.Machine.execLatchHi2 m s

end Sys2Proof.Machine
end

