-- ==== Sys2Proof/Machine/Fetch.lean ====
section
/-!
DEFINITION. What the next step performs. SBBS fetches no program (R50, R67): between two port operations it
serves a host command that is due, else the sequencer performs the step at its schedule position (R142).
-/

namespace Sys2Proof.Machine

/-- What the next step is: an operation to perform in a state, or an action that is no operation of the
opcode table, with its outcome. -/
inductive Fetched where
  | perform (i : Instr) (s : State)
  | act (outcome : Result)

/-- A host command is decoded (R213: the word is decoded first); a reserved code and a VERIFY word with bits
set are refused as ReservedCode (R211), and a port operation's code is not for this interface (R79). -/
def serveHost (r : HostRequest) (s : State) : Fetched :=
  match decodeHost r.word r.operand0 r.operand1 r.log with
  | .ok i => .perform i s
  | .error .portCodeOnHost => .act (.refused .portCodeOnHost)
  | .error _ => .act (.next (s.refuse .reservedCode))

/-- The sequencer's own next step (R142): none in phase `IDLE`, the step at position `k` in phase `SCHED` (R161),
the comparison in phase `VERIFY`. -/
def fetchSequencer (s : State) : Fetched :=
  match s.phase with
  | .idle => .act (.next s)
  | .sched =>
    match s.session with
    | none => .act (.refused .noSession)
    | some ss =>
      match decodePosition ss.pins.din ss.k with
      | some i => .perform i s
      | none => .act (.refused .offSchedule)
  | .verify => .act (verifyPhase s)

/-- The host's side of a step: a command that is due is served, and one that is not comes a step nearer while
the sequencer goes on (assumption 7). -/
def fetchHost (s : State) : Fetched :=
  match s.hostIn with
  | [] => fetchSequencer s
  | r :: rest =>
    if r.wait = 0 then serveHost r { s with hostIn := rest }
    else fetchSequencer { s with hostIn := { r with wait := r.wait - 1 } :: rest }

/-- A PT word set down by `State.withFetchWord` is decoded and run on its own (assumption 6). -/
def fetchRecord (w : OpWord) (s : State) : Fetched :=
  match decodePort w with
  | .ok i => .perform i s
  | .error _ => .act (.refused .notARecord)

/-- What the next step performs. -/
def fetch (s : State) : Fetched :=
  match s.portWord with
  | some w => fetchRecord w { s with portWord := none }
  | none => fetchHost s

/-! ### Placing an operation for the next step -/

/-- A position at which a port operation with this code stands (R160): OPEN 0, RESET 1, SETMODE 2, the first
WRITE 3, the first READ 9, CLOSE 781. -/
def homePosition (c : OpCode) : Nat :=
  if c = 0x1#4 then 0 else if c = 0x2#4 then 1 else if c = 0x3#4 then 2
  else if c = 0x4#4 then 3 else if c = 0x5#4 then 9 else 781

/-- A session for a port operation that is run on its own: pins 0, 1, 2, 3, an all-zero pattern, log target 0,
the position of the operation, and a handle and an ok status where an OPEN has come before (assumption 6). -/
def soloSession (c : OpCode) : Session where
  pins := ⟨0, 1, 2, 3⟩
  pattern := 0
  capture := Config.captureInit
  handle := if c = 0x1#4 then none else some 0
  lastStatus := if c = 0x1#4 then none else some { code := 0, ok := true }
  matched := none
  log := 0
  k := homePosition c

/-- The machine with a session in which a port operation can be issued: its own where it has one. -/
def withPortSession (c : OpCode) (s : State) : State :=
  match s.phase, s.session with
  | .sched, some _ => s
  | _, _ => s.beginSession (soloSession c)

/-- The machine with an operation's words where the next step takes its operation from: a port operation's
word in `portWord`, any other word at the head of the host's commands. -/
def placeWords (e : Encoded) (s : State) : State :=
  if isPortCode (opField e.word) then
    { withPortSession (opField e.word) s with portWord := some e.word }
  else
    { s with
      portWord := none
      hostIn := { wait := 0, word := e.word, operand0 := e.operand0, operand1 := e.operand1, log := e.log } :: s.hostIn }

end Sys2Proof.Machine
end

