-- ==== Sys2Proof/Machine/Step.lean ====
section
/-!
DEFINITION. One step of the machine (R12, R13): one port operation issued and answered, one host command
served, or one action of the VERIFY phase.
-/

namespace Sys2Proof.Machine

/-- One step: what `fetch` finds is performed. -/
def step (s : State) : Host.Outcome State Fault Refusal :=
  match fetch s with
  | .perform i s' => exec i s'
  | .act outcome => outcome

/-- `s` with an opcode-table row's bits placed for the next step (assumption 6). -/
def State.withFetchWord (s : State) (nbits w : Nat) : State :=
  placeWords (encodedOfNat (w % 2 ^ nbits)) s

end Sys2Proof.Machine
end

