-- ==== Sys2Proof/Machine/Listing.lean ====
section
/-!
DEFINITION. The listing notation (spec/30_encoding.md section 7): the pseudo-operations of R89 and the whole
schedule written with them, the reference pseudocode of an accepted RUN (R145), and the text of a line (R88).
No step of the machine reads these; claims hold the schedule against them.
-/

namespace Sys2Proof.Machine

/-- The pseudo-operations of R89; `d` is the level of DOUT. -/
inductive Pseudo where
  | wake
  | passStart
  | bitCycle (d : Bool)
  | latchSync (d : Bool)
  | pass
  | setup
deriving DecidableEq, Repr

/-- `BITCYCLE d` (R89). -/
def bitCycleOps (p : Pins) (d : Bool) : List PortOp :=
  [.write (p.enc false false d), .write (p.enc false true d), .write (p.enc false false d), .read]

/-- `LATCHSYNC d` (R89). -/
def latchSyncOps (p : Pins) (d : Bool) : List PortOp :=
  [.write (p.enc true false d), .write (p.enc false false d), .write (p.enc true false d)]

/-- `PASSSTART` (R89). -/
def passStartOps (p : Pins) : List PortOp := [.write (p.enc false false false)]

/-- `WAKE` (R89). -/
def wakeOps (p : Pins) : List PortOp := [.write (p.enc false false false), .write (p.enc true false false)]

/-- `SETUP` (R89). -/
def setupOps (p : Pins) : List PortOp := [.openPort, .resetPort, .setMode (ioMask p.din) .asyncBitbang]

/-- `PASS`: `PASSSTART`, `BITCYCLE P[0]` to `BITCYCLE P[95]`, `LATCHSYNC P[95]` (R89). -/
def passOps (p : Pins) (x : Bits96) : List PortOp :=
  passStartOps p ++ (List.finRange 96).flatMap (fun i => bitCycleOps p (elem x i)) ++ latchSyncOps p (lastElem x)

/-- The port operations a pseudo-operation names, with the session's pin assignment and pattern (R89). -/
def expand (p : Pins) (x : Bits96) : Pseudo → List PortOp
  | .wake => wakeOps p
  | .passStart => passStartOps p
  | .bitCycle d => bitCycleOps p d
  | .latchSync d => latchSyncOps p d
  | .pass => passOps p x
  | .setup => setupOps p

/-- The whole schedule: `SETUP`, `WAKE`, `PASS`, `PASS`, `CLOSE` (R89, R145). -/
def referenceListing (p : Pins) (x : Bits96) : List PortOp :=
  expand p x .setup ++ expand p x .wake ++ expand p x .pass ++ expand p x .pass ++ [.closePort]

/-! ### The text of a line (R88) -/

/-- One hexadecimal digit. -/
def hexDigit (n : Nat) : String :=
  match n with
  | 0 => "0" | 1 => "1" | 2 => "2" | 3 => "3" | 4 => "4" | 5 => "5" | 6 => "6" | 7 => "7"
  | 8 => "8" | 9 => "9" | 10 => "A" | 11 => "B" | 12 => "C" | 13 => "D" | 14 => "E" | _ => "F"

/-- A byte in hexadecimal with `0x`. -/
def hexByte (b : Byte) : String := "0x" ++ hexDigit (b.toNat / 16) ++ hexDigit (b.toNat % 16)

/-- A level, `0` or `1`. -/
def levelText (v : Bool) : String := if v then "1" else "0"

/-- A pin index. -/
def pinText (p : Pin) : String := hexDigit p.toNat

/-- An array of 96 levels, index 0 leftmost (R15). -/
def arrayText (x : Bits96) : String := String.join ((List.finRange 96).map (fun i => levelText (elem x i)))

/-- Three `name=value` items. -/
def threeText (cs ck dout : String) : String := "cs=" ++ cs ++ ", ck=" ++ ck ++ ", dout=" ++ dout

/-- The line of a host operation, or of a port operation as issued; a schedule step is listed as the port
operation it issues, so it has none of its own (R88). -/
def listingLine : Instr → Option String
  | .run cs ck dout din pattern _ =>
    some ("RUN " ++ threeText (pinText cs) (pinText ck) (pinText dout) ++ ", din=" ++ pinText din ++ ", " ++ arrayText pattern)
  | .encode cs ck dout csLevel ckLevel doutLevel =>
    some ("ENCODE " ++ threeText (levelText csLevel) (levelText ckLevel) (levelText doutLevel)
      ++ " ; pins " ++ threeText (pinText cs) (pinText ck) (pinText dout))
  | .verify written read => some ("VERIFY " ++ arrayText written ++ ", " ++ arrayText read)
  | .openPort => some "OPEN"
  | .resetPort => some "RESET"
  | .setMode mask => some ("SETMODE " ++ hexByte mask ++ ", ASYNC_BITBANG")
  | .write rb => some ("WRITE " ++ hexByte rb)
  | .read lv => some ("READ -> " ++ hexByte lv)
  | .closePort => some "CLOSE"
  | .wakeLo => none
  | .wakeHi => none
  | .passStart _ => none
  | .present _ _ => none
  | .rise _ _ => none
  | .fall _ _ => none
  | .sample _ _ => none
  | .latchHi1 _ => none
  | .latchLo _ => none
  | .latchHi2 _ => none

/-- A status other than ok is written after the operation as `!fail` (R88). -/
def failMark (ok : Bool) : String := if ok then "" else " !fail"

/-- The line of a port operation as issued and answered (R88); a READ whose status is not ok is `READ -> fail`. -/
def recordLine (r : PortRecord) : String :=
  match r.op with
  | .openPort => "OPEN" ++ failMark r.status.isOk
  | .resetPort => "RESET" ++ failMark r.status.isOk
  | .setMode mask .asyncBitbang => "SETMODE " ++ hexByte mask ++ ", ASYNC_BITBANG" ++ failMark r.status.isOk
  | .write rb => "WRITE " ++ hexByte rb ++ failMark r.status.isOk
  | .read => if r.status.isOk then "READ -> " ++ hexByte (dataField r.word) else "READ -> fail"
  | .closePort => "CLOSE" ++ failMark r.status.isOk

end Sys2Proof.Machine
end

