-- ==== Sys2Proof/Safety.lean ====
section
/-!
DEFINITION. What claims about SBBS are stated with: how the port answers, when a state is well formed, and
what a run of the machine is.
-/

namespace Sys2Proof.Machine

/-- The session's registers agree with R24, R29, R30, R31 and R33: the pin assignment is legal, `HANDLE` and
`LAST_STATUS` have a value exactly after OPEN was answered, MATCH has none in phase `SCHED`, and the position is
0 to 781, and 781 once CLOSE was answered. -/
def Session.wf (ss : Session) (phase : Phase) : Bool :=
  match phase with
  | .idle => false
  | .sched =>
    ss.pins.legal && decide (ss.k < Config.scheduleLength) && ss.matched.isNone
      && (ss.handle.isSome == decide (0 < ss.k)) && (ss.lastStatus.isSome == decide (0 < ss.k))
  | .verify =>
    ss.pins.legal && decide (ss.k = 781) && ss.handle.isSome && ss.lastStatus.isSome

/-- The invariant of the machine (R24, R32, R33, R40): a session exists in every phase but `IDLE` and its
registers agree with the phase, and no word stands in the model's own `portWord`. -/
def State.wf (s : State) : Bool :=
  s.portWord.isNone &&
    match s.session with
    | none => s.phase == .idle
    | some ss => ss.wf s.phase

/-- `a` is the port's next answer in `s` and `s1` is the state once it is taken: a planned answer, or a free
one where none is planned (R112). It says without `takeAnswer` what that operation does. -/
def Answers (s : State) (a : PortAnswer) (s1 : State) : Prop :=
  (∃ rest, s.portPlan = some a :: rest ∧ s1 = { s with portPlan := rest }) ∨
  (s.portPlan = [] ∧ a = Config.portAnswer s.answersTaken ∧ s1 = { s with answersTaken := s.answersTaken + 1 })

/-- The session `ss` is executing the schedule (R32). -/
def Running (s : State) (ss : Session) : Prop := s.phase = .sched ∧ s.session = some ss

/-- No host command waits and no word is to be run on its own: the sequencer has the machine to itself. -/
def Quiet (s : State) : Prop := s.hostIn = [] ∧ s.portWord = none

/-- No host command is due and no word is to be run on its own: the step is the sequencer's, whether or not a command
is still to come (assumption 7). -/
def NothingDue (s : State) : Prop := s.portWord = none ∧ ∀ r rest, s.hostIn = r :: rest → 0 < r.wait

/-- The commands to come after a step that serves none: the next one is a step nearer (assumption 7). -/
def oneStepNearer : List HostRequest → List HostRequest
  | [] => []
  | r :: rest => { r with wait := r.wait - 1 } :: rest

/-- The error event of an operation with error kind `kind` at position `k`, if its status `st` is not ok (R111, R204). -/
def errorEvents (kind : ErrorKind) (log : LogTarget) (k : Nat) (st : Status) : List DiagLine :=
  if st.isOk then [] else [{ log := some log, event := .error kind k st }]

/-- The position of SAMPLE(i) of pass `m` (R160). -/
def samplePosition (m : Fin 2) (i : Fin 96) : Nat := 5 + 388 * m.val + 4 + 4 * i.val

/-- `k` is the position of a SAMPLE (R160). -/
def IsSamplePosition (k : Nat) : Prop := ∃ m i, k = samplePosition m i

/-- The error kind of the operation at position `k` (R160, R200): SAMPLE positions are those whose offset in the
pass is 4, 8, …, 384. -/
def errorKindAt (k : Nat) : ErrorKind :=
  if k = 0 then .deviceOpenFailed
  else if k = 1 then .deviceResetFailed
  else if k = 2 then .modeConfigFailed
  else if k = 781 then .deviceCloseFailed
  else if 9 ≤ k ∧ (k - 5) % 388 ≠ 0 ∧ (k - 5) % 388 ≤ 384 ∧ (k - 5) % 4 = 0 then .readFailed
  else .writeFailed

/-- A host operation, as opposed to a port operation or a schedule step (R79). -/
def IsHostOp : Instr → Prop
  | .run _ _ _ _ _ _ => True
  | .encode _ _ _ _ _ _ => True
  | .verify _ _ => True
  | .openPort => False
  | .resetPort => False
  | .setMode _ => False
  | .write _ => False
  | .read _ => False
  | .closePort => False
  | .wakeLo => False
  | .wakeHi => False
  | .passStart _ => False
  | .present _ _ => False
  | .rise _ _ => False
  | .fall _ _ => False
  | .sample _ _ => False
  | .latchHi1 _ => False
  | .latchLo _ => False
  | .latchHi2 _ => False

/-- The byte an operation writes in session `ss`: WRITE its own, a schedule step the one its rule gives
(R117, R150 to R155, R157 to R159), every other operation none. -/
def writtenByte (ss : Session) : Instr → Option Byte
  | .run _ _ _ _ _ _ => none
  | .encode _ _ _ _ _ _ => none
  | .verify _ _ => none
  | .openPort => none
  | .resetPort => none
  | .setMode _ => none
  | .write rb => some rb
  | .read _ => none
  | .closePort => none
  | .wakeLo => some (ss.pins.enc false false false)
  | .wakeHi => some (ss.pins.enc true false false)
  | .passStart _ => some (ss.pins.enc false false false)
  | .present _ i => some (ss.pins.enc false false (elem ss.pattern i))
  | .rise _ i => some (ss.pins.enc false true (elem ss.pattern i))
  | .fall _ i => some (ss.pins.enc false false (elem ss.pattern i))
  | .sample _ _ => none
  | .latchHi1 _ => some (ss.pins.enc true false (elem ss.pattern 95))
  | .latchLo _ => some (ss.pins.enc false false (elem ss.pattern 95))
  | .latchHi2 _ => some (ss.pins.enc true false (elem ss.pattern 95))

/-- What happens to the state when a WRITE of `b` at position `ss.k` is answered `a` (R111, R117 to R119, R240): `s1`
is the state with the answer taken. -/
def afterWrite (s1 : State) (ss : Session) (a : PortAnswer) (b : Byte) : State :=
  { s1 with
    session := some { ss with lastStatus := some a.status, k := ss.k + 1 }
    port := { s1.port with outLatch := if a.status.isOk || a.applied then b else s1.port.outLatch }
    trace := s1.trace ++ [{ k := ss.k, op := .write b, handle := ss.handle, word := 0x40#8 ++ b, status := a.status,
                            bytesWritten := some a.bytesWritten, mode := none, settle := s1.settleDue }]
    diag := s1.diag ++ errorEvents .writeFailed ss.log ss.k a.status
    settleDue := Config.settleDelay }

/-- In the idle machine `s` an accepted RUN would meet the 782 port answers `answers`, and no host command comes
in between. -/
def ReadyToRun (s : State) (answers : List PortAnswer) (rest : List (Option PortAnswer)) : Prop :=
  s.phase = .idle ∧ Quiet s ∧ answers.length = 782 ∧ s.portPlan = answers.map some ++ rest

/-- The register bytes of a listing, in order. -/
def writtenBytes : List PortOp → List Byte
  | [] => []
  | .write b :: rest => b :: writtenBytes rest
  | _ :: rest => writtenBytes rest

/-- How often the level of pin `q` goes from `v` to its opposite between consecutive register bytes. -/
def edgeCount (q : Pin) (v : Bool) (bytes : List Byte) : Nat :=
  ((bytes.zip bytes.tail).filter fun bb => bitAt bb.1 q == v && bitAt bb.2 q == !v).length

/-- The machine from `s` reaches `t` in `n` steps, none of them a fault or a refusal. -/
def Reaches (n : Nat) (s t : State) : Prop := Host.Core.run Sys2Proof.core n s = .next t

/-- A run of `n` steps from `s` is safe when it meets no fault and no refusal. -/
def SafeFor (n : Nat) (s : State) : Prop := ∃ t, Reaches n s t

/-- RUN is accepted in `s` and, 784 steps later (782 port operations and the two steps of the VERIFY phase,
assumption 11), the machine is in `u` (R246). -/
def RunsTo (s : State) (pins : Pins) (pattern : Bits96) (log : LogTarget) (u : State) : Prop :=
  ∃ t, exec (.run pins.cs pins.ck pins.dout pins.din pattern log) s = .next t ∧ Reaches 784 t u

end Sys2Proof.Machine
end

