-- ==== Sys2Proof/Certificates/Slice0/Obligations.lean ====
section
/-!
DEFINITION. The statements about SBBS that the provers settle. Each docstring names the rules of spec/ it rests on.
-/

open Sys2Proof Sys2Proof.Machine

/-! ### Encodings -/

/-- R78 to R81, R161: seven words the spec writes out decode to their operations and 0xA001 to none
(spec/95_test_vectors.md 2.3 and 2.5; 0x400A stands in 1.6 and P2), and positions 264 (P2) and 778 (2.5) decode to
their steps. -/
def Obligations.DecodesTheSpecsWords : Prop :=
  decodeTableWord 16 0x805A = some (.run 2 3 1 0 0 0) ∧
  decodeTableWord 16 0x8E88 = some (.run 0 1 2 7 0 0) ∧
  decodeTableWord 16 0x9A5A = some (.encode 2 3 1 true false true) ∧
  decodeTableWord 16 0xA000 = some (.verify 0 0) ∧
  decodeTableWord 16 0xA001 = none ∧
  decodeTableWord 16 0x30FE = some (.setMode 0xFE#8) ∧
  decodeTableWord 16 0x400A = some (.write 0x0A#8) ∧
  decodeTableWord 16 0x5003 = some (.read 0x03#8) ∧
  decodePosition 0 264 = some (.fall 0 64) ∧
  decodePosition 0 778 = some (.latchHi1 1)

/-- R79 to R81: for every operation with a word of its own, decoding its words gives it back, with every operand. -/
def Obligations.DecodeInvertsEncode : Prop :=
  ∀ (p : Pins) (x : Bits96) (i : Instr),
    (IsHostOp i ∨ i = .openPort ∨ i = .resetPort ∨ (∃ m, i = .setMode m) ∨ (∃ b, i = .write b) ∨
      (∃ lv, i = .read lv) ∨ i = .closePort) →
    decodeWord (encode p x i) = .ok i

/-- R80, R160, R171: the word a schedule step issues, at the step's own position, is read back as that step (SETMODE
stands at its position with the session's own mask, R116); at the position of a SAMPLE every READ word is (R122).
Every other port word at a position is refused as not that step's, every port word is from position 782 on, and a word
that is no port operation's is refused as such everywhere. -/
def Obligations.RecordAtItsPositionDecodesToTheStep : Prop :=
  (∀ (p : Pins) (x : Bits96) (i : Instr) (k : Nat),
    position i = some k → (∀ m, i = .setMode m → m = ioMask p.din) →
    decodeRecordAt p x k (encode p x i).word = .ok i) ∧
  (∀ (p : Pins) (x : Bits96) (m : Fin 2) (i : Fin 96) (lv : Byte),
    decodeRecordAt p x (samplePosition m i) (0x50#8 ++ lv) = .ok (.sample m i)) ∧
  (∀ (p : Pins) (x : Bits96) (k : Nat) (w : OpWord) (i st : Instr),
    decodePort w = .ok i → decodePosition p.din k = some st → w ≠ (encode p x st).word →
    ¬ (IsSamplePosition k ∧ opField w = 0x5#4) → decodeRecordAt p x k w = .error .notThisStep) ∧
  (∀ (p : Pins) (x : Bits96) (k : Nat) (w : OpWord) (i : Instr),
    decodePort w = .ok i → 782 ≤ k → decodeRecordAt p x k w = .error .notThisStep) ∧
  (∀ (p : Pins) (x : Bits96) (k : Nat) (w : OpWord) (e : Reject),
    decodePort w = .error e → decodeRecordAt p x k w = .error e)

/-- R80, R81: what a decoder accepts has no other word: a port word that decodes is the word of the operation it
decodes to, and so is a host command word, with every operand its code takes. No bit of a word that is accepted is
dropped. For OPEN, RESET and CLOSE this rests on the model's refusal of a data byte that is not 0x00, which R85 does
not name (assumption 25). -/
def Obligations.EncodeInvertsDecode : Prop :=
  (∀ (p : Pins) (x : Bits96) (w : OpWord) (i : Instr), decodePort w = .ok i → encode p x i = bareWord w) ∧
  (∀ (p : Pins) (x : Bits96) (w : OpWord) (a b : Bits96) (log : LogTarget) (i : Instr),
    decodeHost w a b log = .ok i →
    (encode p x i).word = w ∧ (1 ≤ operandCount (opField w) → (encode p x i).operand0 = a) ∧
      (operandCount (opField w) = 2 → (encode p x i).operand1 = b) ∧
      (opField w = 0x8#4 → (encode p x i).log = log))

/-- R80, R85: a port word with a code outside 0x1 to 0x6, or with a bit of [11:8] set, describes no port operation and
is refused; so is one of OPEN, RESET or CLOSE whose data byte is not 0x00, which is read from R80 by inference
(assumption 25). Every other word is accepted. -/
def Obligations.PortDecoderRefusesEveryOtherWord : Prop :=
  ∀ w : OpWord,
    ((opField w).toNat < 1 ∨ 6 < (opField w).toNat → decodePort w = .error .notPortCode) ∧
    (1 ≤ (opField w).toNat → (opField w).toNat ≤ 6 → zeroField w ≠ 0 →
      decodePort w = .error .recordBitsSet) ∧
    (opField w = 0x1#4 ∨ opField w = 0x2#4 ∨ opField w = 0x6#4 → zeroField w = 0 → dataField w ≠ 0 →
      decodePort w = .error .recordDataSet) ∧
    (opField w = 0x1#4 ∨ opField w = 0x2#4 ∨ opField w = 0x6#4 → zeroField w = 0 → dataField w = 0 →
      ∃ i, decodePort w = .ok i) ∧
    (opField w = 0x3#4 ∨ opField w = 0x4#4 ∨ opField w = 0x5#4 → zeroField w = 0 → ∃ i, decodePort w = .ok i)

/-- R160, R161: the table of positions and the decoding of a position are inverse to each other, and together name
exactly one step for each of the positions 0 to 781. -/
def Obligations.PositionsAndStepsAreInverse : Prop :=
  (∀ (din : Pin) (i : Instr) (k : Nat), position i = some k → (∀ m, i = .setMode m → m = ioMask din) →
      decodePosition din k = some i) ∧
  (∀ (din : Pin) (k : Nat), k < 782 → ∃ i, decodePosition din k = some i ∧ position i = some k) ∧
  (∀ (din : Pin) (k : Nat), 782 ≤ k → decodePosition din k = none)

/-- R74 (the polarity is the spec's choice, 92 D9): bit `q` of the mask is 1 iff pin `q` is an output, that is, every
pin but DIN. -/
def Obligations.MaskMakesEveryPinButDinAnOutput : Prop :=
  ∀ din q : Pin, bitAt (ioMask din) q = decide (q ≠ din)

/-- R70: format RB. In a session, whose pin assignment is legal (R24), each of the three levels stands at the bit that
its pin register names, and every other bit, that of DIN among them, is 0. -/
def Obligations.RegisterByteHoldsEachLevelAtItsPin : Prop :=
  ∀ (p : Pins) (cs ck dout : Bool), p.legal = true →
    bitAt (p.enc cs ck dout) p.cs = cs ∧ bitAt (p.enc cs ck dout) p.ck = ck ∧
    bitAt (p.enc cs ck dout) p.dout = dout ∧ bitAt (p.enc cs ck dout) p.din = false ∧
    ∀ q : Pin, q ≠ p.cs → q ≠ p.ck → q ≠ p.dout → bitAt (p.enc cs ck dout) q = false

/-- R71: with pairwise distinct pins the register byte is the OR of the three shifted levels, and their sum. -/
def Obligations.RegisterByteIsTheOrOfItsTerms : Prop :=
  ∀ (cs ck dout : Pin) (a b c : Bool), distinct3 cs ck dout = true →
    encodeByte cs ck dout a b c =
      ((BitVec.ofBool a).setWidth 8 <<< cs.toNat) ||| ((BitVec.ofBool b).setWidth 8 <<< ck.toNat)
        ||| ((BitVec.ofBool c).setWidth 8 <<< dout.toNat) ∧
    encodeByte cs ck dout a b c =
      ((BitVec.ofBool a).setWidth 8 <<< cs.toNat) + ((BitVec.ofBool b).setWidth 8 <<< ck.toNat)
        + ((BitVec.ofBool c).setWidth 8 <<< dout.toNat)

/-- R104: ENCODE of three low levels is 0 for every pin assignment, the DIN bit of every result in a session is 0, and
`PIN_DIN` plays no part. -/
def Obligations.RegisterByteCornerCases : Prop :=
  (∀ cs ck dout : Pin, encodeByte cs ck dout false false false = 0x00#8) ∧
  (∀ (p : Pins) (a b c : Bool), p.legal = true → bitAt (p.enc a b c) p.din = false) ∧
  (∀ (p : Pins) (d : Pin) (a b c : Bool), p.enc a b c = ({ p with din := d } : Pins).enc a b c)

/-! ### Host operations -/

/-- R103: ENCODE completes with the byte that holds each level at its pin and 0 at the other five; its number of set
bits is `cs + ck + dout`, and 0xE0 is its largest value, reached only with pins 5, 6, 7 and all levels 1. Nothing but
the reply changes. -/
def Obligations.EncodeIsExact : Prop :=
  ∀ (cs ck dout : Pin) (a b c : Bool) (s : State), distinct3 cs ck dout = true →
    ∃ rb : Byte, exec (.encode cs ck dout a b c) s = .next { s with replies := s.replies ++ [.byte rb] } ∧
      bitAt rb cs = a ∧ bitAt rb ck = b ∧ bitAt rb dout = c ∧
      (∀ q : Pin, q ≠ cs → q ≠ ck → q ≠ dout → bitAt rb q = false) ∧
      ((List.finRange 8).filter (fun q => rb.getLsbD q.val)).length = a.toNat + b.toNat + c.toNat ∧
      rb.toNat ≤ 0xE0 ∧
      (rb = 0xE0#8 ↔ (a = true ∧ b = true ∧ c = true ∧ 5 ≤ cs.toNat ∧ 5 ≤ ck.toNat ∧ 5 ≤ dout.toNat))

/-- R84, R210, the spec's choice (92 D4): a RUN in phase `IDLE` whose four pins are not pairwise distinct, and an
ENCODE in any phase whose three pins are not, are refused; nothing but the reply changes (assumption 15). -/
def Obligations.CollidingPinsAreRefused : Prop :=
  (∀ (cs ck dout din : Pin) (x : Bits96) (log : LogTarget) (s : State), s.phase = .idle →
      (cs = ck ∨ cs = dout ∨ cs = din ∨ ck = dout ∨ ck = din ∨ dout = din) →
      exec (.run cs ck dout din x log) s = .next { s with replies := s.replies ++ [.refused .pinConfigInvalid] }) ∧
  (∀ (cs ck dout : Pin) (a b c : Bool) (s : State), (cs = ck ∨ cs = dout ∨ ck = dout) →
      exec (.encode cs ck dout a b c) s = .next { s with replies := s.replies ++ [.refused .pinConfigInvalid] })

/-- R141, R231 (acceptance is the spec's choice, 92 D4 and D18): an accepted RUN creates a session whose every
register has the value of R40's column "at session creation", whatever the state held before, and issues nothing yet.
-/
def Obligations.AcceptedRunCreatesTheSession : Prop :=
  ∀ (cs ck dout din : Pin) (x : Bits96) (log : LogTarget) (s : State), s.phase = .idle →
    (cs ≠ ck ∧ cs ≠ dout ∧ cs ≠ din ∧ ck ≠ dout ∧ ck ≠ din ∧ dout ≠ din) →
    exec (.run cs ck dout din x log) s = .next { s with
      phase := .sched
      session := some { pins := ⟨cs, ck, dout, din⟩, pattern := x, capture := Config.captureInit, handle := none,
                        lastStatus := none, matched := none, log := log, k := 0 } }

/-- R212, the spec's choice (92 D18): while a session exists every RUN is refused as Busy and the session goes on
undisturbed, and ENCODE and VERIFY complete without touching it (the trace event of such a VERIFY is appended at once,
assumption 27). -/
def Obligations.HostOperationsDoNotDisturbASession : Prop :=
  ∀ (s : State), s.phase ≠ .idle →
    (∀ cs ck dout din x log,
      exec (.run cs ck dout din x log) s = .next { s with replies := s.replies ++ [.refused .busy] }) ∧
    (∀ cs ck dout a b c, ∃ r, r ≠ Reply.refused .busy ∧
      exec (.encode cs ck dout a b c) s = .next { s with replies := s.replies ++ [r] }) ∧
    (∀ w r, ∃ lines reply, reply ≠ Reply.refused .busy ∧
      exec (.verify w r) s = .next { s with replies := s.replies ++ [reply], diag := s.diag ++ lines })

/-- R83, R211, R213, the spec's choice (92 D4; the reply is assumption 15): a due host command is decoded first; a
reserved code or a VERIFY word with a bit of [11:0] set is refused as ReservedCode in any phase, then RUN as Busy
where a session exists, whatever its pins, then as PinConfigInvalid where its pins collide; the codes are 0x10, 0x11,
0x12. Nothing but the reply changes. -/
def Obligations.RefusalsComeInOrder : Prop :=
  (∀ (s : State) (r : HostRequest) (rest : List HostRequest),
    s.portWord = none → s.hostIn = r :: rest → r.wait = 0 →
    ((opField r.word = 0x0#4 ∨ opField r.word = 0x7#4 ∨ 0xB ≤ (opField r.word).toNat ∨
        (opField r.word = 0xA#4 ∧ argField r.word ≠ 0)) →
      step s = .next { s with hostIn := rest, replies := s.replies ++ [.refused .reservedCode] }) ∧
    (opField r.word = 0x8#4 → s.phase ≠ .idle →
      step s = .next { s with hostIn := rest, replies := s.replies ++ [.refused .busy] }) ∧
    (opField r.word = 0x8#4 → s.phase = .idle → (unpackPins (argField r.word)).legal = false →
      step s = .next { s with hostIn := rest, replies := s.replies ++ [.refused .pinConfigInvalid] })) ∧
  HostRefusal.reservedCode.code = 0x10 ∧ HostRefusal.busy.code = 0x11 ∧ HostRefusal.pinConfigInvalid.code = 0x12

/-- R181, R180: the pseudocode's verdict is 1 iff all 96 elements are equal, that is, iff the arrays are equal; a
single mismatch fails it. -/
def Obligations.VerdictIsElementwiseEquality : Prop :=
  ∀ w r : Bits96, (verdict w r = true ↔ ∀ i, elem w i = elem r i) ∧ (verdict w r = true ↔ w = r)

/-- R181: one mismatched element fails the comparison, and every two comparisons that fail have the same result, so it
tells neither how many elements differ nor where. -/
def Obligations.MismatchFailsWithoutPartialCredit : Prop :=
  (∀ (w r : Bits96) (i : Fin 96), elem w i ≠ elem r i → verdict w r = false) ∧
  (∀ w r w' r' : Bits96, w ≠ r → w' ≠ r' → verdict w r = verdict w' r')

/-- R182 (one event, the spec's choice 92 D14; its log, the two steps of the phase and its place in the diagnostic
output are assumptions 10, 11 and 27): VERIFY writes no register of SBBS and appends one trace event with both arrays
and the verdict; inside RUN the VERIFY phase, when no host command is due, also writes the verdict to MATCH. -/
def Obligations.VerifyAppendsOneTrace : Prop :=
  (∀ (w r : Bits96) (s : State),
    exec (.verify w r) s = .next { s with
      diag := s.diag ++ [{ log := none, event := .trace w r (decide (w = r)) }]
      replies := s.replies ++ [.verdict (decide (w = r))] }) ∧
  (∀ (s : State) (ss : Session), NothingDue s → s.phase = .verify → s.session = some ss → ss.matched = none →
    step s = .next { s with
      hostIn := oneStepNearer s.hostIn
      session := some { ss with matched := some (decide (ss.pattern = ss.capture)) }
      diag := s.diag ++ [{ log := some ss.log, event := .trace ss.pattern ss.capture (decide (ss.pattern = ss.capture)) }] })

/-- R184: `verify(P, P)` is true, `verify(P, P')` is false whenever they differ in at least one position, and VERIFY
is symmetric. -/
def Obligations.VerdictCornerCases : Prop :=
  (∀ x, verdict x x = true) ∧
  (∀ x y i, elem x i ≠ elem y i → verdict x y = false) ∧
  (∀ x y, verdict x y = verdict y x) ∧
  (∀ x, verdict x (setElem x 47 (!elem x 47)) = false)

/-- R169: when the chain returns `C[i] = P[(i - 1) mod 96]`, MATCH is 1 exactly when all elements of `P` are equal.
Subtraction in `Fin 96` is modulo 96. -/
def Obligations.OneBitOffsetMatchesOnlyConstantPatterns : Prop :=
  ∀ x c : Bits96, (∀ i : Fin 96, elem c i = elem x (i - 1)) →
    (verdict x c = true ↔ ∀ i j, elem x i = elem x j)

/-! ### Port operations: each completes in a running session that the port answers -/

/-- R111, R113: OPEN, at position 0; the handle is kept whatever the status is. That a failed OPEN yields a handle
value at all is the spec's reading (R114, 92 D25, assumption 20), and what OPEN leaves in the port beside the handle
is free (assumption 16). -/
def Obligations.OpenCompletes : Prop :=
  ∀ (s s1 : State) (ss : Session) (a : PortAnswer), Running s ss → Answers s a s1 →
    position .openPort = some 0 ∧ exec .openPort s = .next { s1 with
      session := some { ss with handle := some a.handle, lastStatus := some a.status, k := ss.k + 1 }
      port := if a.status.isOk then { a.port with openHandle := some a.handle } else a.port
      trace := s.trace ++ [{ k := ss.k, op := .openPort, handle := none, word := 0x1000#16, status := a.status,
                             bytesWritten := none, mode := none, settle := s.settleDue }]
      diag := s.diag ++ errorEvents .deviceOpenFailed ss.log ss.k a.status
      settleDue := 0 }

/-- R111, R115: RESET, at position 1; no source says what it leaves in the port, which is free (assumption 16). -/
def Obligations.ResetCompletes : Prop :=
  ∀ (s s1 : State) (ss : Session) (a : PortAnswer), Running s ss → Answers s a s1 →
    position .resetPort = some 1 ∧ exec .resetPort s = .next { s1 with
      session := some { ss with lastStatus := some a.status, k := ss.k + 1 }
      port := a.port
      trace := s.trace ++ [{ k := ss.k, op := .resetPort, handle := ss.handle, word := 0x2000#16, status := a.status,
                             bytesWritten := none, mode := none, settle := s.settleDue }]
      diag := s.diag ++ errorEvents .deviceResetFailed ss.log ss.k a.status
      settleDue := 0 }

/-- R76, R111, R116: SETMODE with any mask; that bit 1 means output is the spec's choice (92 D9, assumption 14), and
what a failed SETMODE leaves in the port is free (assumption 16). -/
def Obligations.SetModeCompletes : Prop :=
  ∀ (mask : Byte) (s s1 : State) (ss : Session) (a : PortAnswer), Running s ss → Answers s a s1 →
    exec (.setMode mask) s = .next { s1 with
      session := some { ss with lastStatus := some a.status, k := ss.k + 1 }
      port := if a.status.isOk then { a.port with mask := mask, mode := some .asyncBitbang } else a.port
      trace := s.trace ++ [{ k := ss.k, op := .setMode mask .asyncBitbang, handle := ss.handle, word := 0x30#8 ++ mask,
                             status := a.status, bytesWritten := none, mode := some Config.modeAsyncBitbang,
                             settle := s.settleDue }]
      diag := s.diag ++ errorEvents .modeConfigFailed ss.log ss.k a.status
      settleDue := 0 }

/-- R111, R117: WRITE, issued and recorded whatever byte was written before. That its failure is decided by the status
alone (R118, 92 D7, assumption 20) and that a failed WRITE may or may not reach the output latch (R119, 92 D17,
assumption 16) are the spec's choices. -/
def Obligations.WriteCompletes : Prop :=
  ∀ (b : Byte) (s s1 : State) (ss : Session) (a : PortAnswer), Running s ss → Answers s a s1 →
    exec (.write b) s = .next (afterWrite s1 ss a b) ∧
    (afterWrite s1 ss a b).trace = s.trace ++
      [{ k := ss.k, op := .write b, handle := ss.handle, word := 0x40#8 ++ b, status := a.status,
         bytesWritten := some a.bytesWritten, mode := none, settle := s.settleDue }] ∧
    (a.status.isOk = true → (afterWrite s1 ss a b).port = { s.port with outLatch := b } ∧
      (afterWrite s1 ss a b).diag = s.diag) ∧
    (a.status.isOk = false → ((afterWrite s1 ss a b).port = s.port ∨
      (afterWrite s1 ss a b).port = { s.port with outLatch := b }) ∧
      (afterWrite s1 ss a b).diag = s.diag ++ [{ log := some ss.log, event := .error .writeFailed ss.k a.status }])

/-- R111, R121: READ changes no register but `LAST_STATUS` and the position; the record's data is the levels answered,
0x00 on failure. That READ leaves the port as it is is the spec's choice (R59, 92 D20). -/
def Obligations.ReadCompletes : Prop :=
  ∀ (lv : Byte) (s s1 : State) (ss : Session) (a : PortAnswer), Running s ss → Answers s a s1 →
    exec (.read lv) s = .next { s1 with
      session := some { ss with lastStatus := some a.status, k := ss.k + 1 }
      trace := s.trace ++ [{ k := ss.k, op := .read, handle := ss.handle,
                             word := 0x50#8 ++ (if a.status.isOk then a.levels else 0x00#8), status := a.status,
                             bytesWritten := none, mode := none, settle := s.settleDue }]
      diag := s.diag ++ errorEvents .readFailed ss.log ss.k a.status
      settleDue := 0 }

/-- R111, R124: CLOSE, at position 781, ends the schedule, whatever its status is; what it leaves in the port is the
model's reading (assumption 16), and so is that the position stays where it is (assumption 21). -/
def Obligations.CloseCompletes : Prop :=
  ∀ (s s1 : State) (ss : Session) (a : PortAnswer), Running s ss → Answers s a s1 →
    position .closePort = some 781 ∧ exec .closePort s = .next { s1 with
      phase := .verify
      session := some { ss with lastStatus := some a.status }
      port := if a.status.isOk then { a.port with openHandle := none } else a.port
      trace := s.trace ++ [{ k := ss.k, op := .closePort, handle := ss.handle, word := 0x6000#16, status := a.status,
                             bytesWritten := none, mode := none, settle := s.settleDue }]
      diag := s.diag ++ errorEvents .deviceCloseFailed ss.log ss.k a.status
      settleDue := 0 }

/-- R120: a write is issued and recorded whatever byte was written before, the same byte too: SBBS never elides one.
-/
def Obligations.EveryWriteIsIssued : Prop :=
  ∀ (i : Instr) (b : Byte) (s s1 : State) (ss : Session) (a : PortAnswer), Running s ss → Answers s a s1 →
    writtenByte ss i = some b →
    ∃ t r, exec i s = .next t ∧ t.trace = s.trace ++ [r] ∧ r.op = .write b

/-- R200: the code of the error an operation raises is its operation code, 1 to 6 (the codes are the spec's own, 92
D14). -/
def Obligations.ErrorCodeIsTheOperationCode : Prop :=
  ∀ op : PortOp, op.errorKind.code = op.code.toNat ∧ 1 ≤ op.errorKind.code ∧ op.errorKind.code ≤ 6

/-- R53, R72, R74, R75, R119: once SETMODE's mask is set, an ok WRITE of a register byte drives CS, CK and DOUT to
their levels and every other output pin low, and leaves DIN undriven (1 = output is the spec's choice, 92 D9). -/
def Obligations.OkWriteDrivesExactlyTheOutputPins : Prop :=
  ∀ (a b c : Bool) (s s1 : State) (ss : Session) (ans : PortAnswer), Running s ss → Answers s ans s1 →
    ss.pins.legal = true → s.port.mask = ioMask ss.pins.din → ans.status.isOk = true →
    ∃ t, exec (.write (ss.pins.enc a b c)) s = .next t ∧
      drivenLevel t.port ss.pins.cs = some a ∧ drivenLevel t.port ss.pins.ck = some b ∧
      drivenLevel t.port ss.pins.dout = some c ∧ drivenLevel t.port ss.pins.din = none ∧
      ∀ q, q ≠ ss.pins.cs → q ≠ ss.pins.ck → q ≠ ss.pins.dout → q ≠ ss.pins.din → drivenLevel t.port q = some false

/-! ### Schedule steps -/

/-- R150, R151: the wake pulse, at positions 3 and 4. `afterWrite` follows the spec's choices 92 D7 and D17
(assumptions 16 and 20). -/
def Obligations.WakePulseCompletes : Prop :=
  ∀ (s s1 : State) (ss : Session) (a : PortAnswer), Running s ss → Answers s a s1 →
    position .wakeLo = some 3 ∧ position .wakeHi = some 4 ∧
    exec .wakeLo s = .next (afterWrite s1 ss a (ss.pins.enc false false false)) ∧
    exec .wakeHi s = .next (afterWrite s1 ss a (ss.pins.enc true false false))

/-- R152: PASS_START, at position `5 + 388*m`, drives DOUT low whatever the pattern is. `afterWrite` follows the
spec's choices 92 D7 and D17 (assumptions 16 and 20). -/
def Obligations.PassStartCompletes : Prop :=
  ∀ (m : Fin 2) (s s1 : State) (ss : Session) (a : PortAnswer), Running s ss → Answers s a s1 →
    position (.passStart m) = some (5 + 388 * m.val) ∧
    exec (.passStart m) s = .next (afterWrite s1 ss a (ss.pins.enc false false false))

/-- R153 to R155: PRESENT, RISE and FALL of bit `i`, at their positions, each a WRITE that is issued and recorded
whatever byte came before. `afterWrite` follows the spec's choices 92 D7 and D17 (assumptions 16 and 20). -/
def Obligations.BitClockStepsComplete : Prop :=
  ∀ (m : Fin 2) (i : Fin 96) (s s1 : State) (ss : Session) (a : PortAnswer), Running s ss → Answers s a s1 →
    position (.present m i) = some (5 + 388 * m.val + 1 + 4 * i.val) ∧
    position (.rise m i) = some (5 + 388 * m.val + 2 + 4 * i.val) ∧
    position (.fall m i) = some (5 + 388 * m.val + 3 + 4 * i.val) ∧
    exec (.present m i) s = .next (afterWrite s1 ss a (ss.pins.enc false false (elem ss.pattern i))) ∧
    exec (.rise m i) s = .next (afterWrite s1 ss a (ss.pins.enc false true (elem ss.pattern i))) ∧
    exec (.fall m i) s = .next (afterWrite s1 ss a (ss.pins.enc false false (elem ss.pattern i)))

/-- R157 to R159: the latch synchronizer, at its positions, with DOUT held at `P[95]`. `afterWrite` follows the spec's
choices 92 D7 and D17 (assumptions 16 and 20). -/
def Obligations.LatchStepsComplete : Prop :=
  ∀ (m : Fin 2) (s s1 : State) (ss : Session) (a : PortAnswer), Running s ss → Answers s a s1 →
    position (.latchHi1 m) = some (5 + 388 * m.val + 385) ∧
    position (.latchLo m) = some (5 + 388 * m.val + 386) ∧
    position (.latchHi2 m) = some (5 + 388 * m.val + 387) ∧
    exec (.latchHi1 m) s = .next (afterWrite s1 ss a (ss.pins.enc true false (elem ss.pattern 95))) ∧
    exec (.latchLo m) s = .next (afterWrite s1 ss a (ss.pins.enc false false (elem ss.pattern 95))) ∧
    exec (.latchHi2 m) s = .next (afterWrite s1 ss a (ss.pins.enc true false (elem ss.pattern 95)))

/-- R156: SAMPLE(i), at its position, is a READ that writes `C[i]` with the DIN bit when the status is ok; that it
writes no element when the status is not ok is the spec's choice (92 D6), and so is that the port stays as it is (92
D20). -/
def Obligations.SampleCaptures : Prop :=
  ∀ (m : Fin 2) (i : Fin 96) (s s1 : State) (ss : Session) (a : PortAnswer), Running s ss → Answers s a s1 →
    position (.sample m i) = some (samplePosition m i) ∧ ∃ c : Bits96,
      exec (.sample m i) s = .next { s1 with
        session := some { ss with capture := c, lastStatus := some a.status, k := ss.k + 1 }
        trace := s.trace ++ [{ k := ss.k, op := .read, handle := ss.handle,
                               word := 0x50#8 ++ (if a.status.isOk then a.levels else 0x00#8), status := a.status,
                               bytesWritten := none, mode := none, settle := s.settleDue }]
        diag := s.diag ++ errorEvents .readFailed ss.log ss.k a.status
        settleDue := 0 } ∧
      (a.status.isOk = true → elem c i = bitAt a.levels ss.pins.din ∧ ∀ j, j ≠ i → elem c j = elem ss.capture j) ∧
      (a.status.isOk = false → c = ss.capture)

/-- R110: a port operation or schedule step that the port never answers leaves the sequencer stuck. -/
def Obligations.SilentPortStopsEveryOperation : Prop :=
  ∀ (i : Instr) (s : State) (ss : Session) (rest : List (Option PortAnswer)), ¬ IsHostOp i → Running s ss →
    s.portPlan = none :: rest → exec i s = .fault .portNeverAnswers

/-- The model's choice (assumption 12), from R40's "no rule reads it there": a port operation or schedule step without
a session in phase `SCHED` is given no meaning. -/
def Obligations.NoPortOperationOutsideTheSchedule : Prop :=
  ∀ (i : Instr) (s : State), ¬ IsHostOp i → (s.phase ≠ .sched ∨ s.session = none) → exec i s = .refused .noSession

/-! ### The step -/

/-- What a step performs (R142, R161, R213, assumptions 6 and 7): the word set in `portWord`; else the host command
that is due, with its operands; else, in phase `SCHED`, the step at the schedule position, while a host command that
is not due comes one step nearer. -/
def Obligations.StepPerformsTheDecodedOperation : Prop :=
  (∀ (s : State) (w : OpWord) (i : Instr), s.portWord = some w → decodePort w = .ok i →
    step s = exec i { s with portWord := none }) ∧
  (∀ (s : State) (r : HostRequest) (rest : List HostRequest) (i : Instr),
    s.portWord = none → s.hostIn = r :: rest → r.wait = 0 →
    decodeHost r.word r.operand0 r.operand1 r.log = .ok i → step s = exec i { s with hostIn := rest }) ∧
  (∀ (s : State) (ss : Session) (i : Instr), Quiet s → Running s ss →
    decodePosition ss.pins.din ss.k = some i → step s = exec i s) ∧
  (∀ (s : State) (ss : Session) (i : Instr) (r : HostRequest) (rest : List HostRequest),
    s.portWord = none → Running s ss → s.hostIn = r :: rest → 0 < r.wait →
    decodePosition ss.pins.din ss.k = some i →
    step s = exec i { s with hostIn := { r with wait := r.wait - 1 } :: rest })

/-- The model's choice (assumption 8): a host command word with a port operation's code, which R79 places on the port
interface only, is given no meaning. -/
def Obligations.PortCodeOnTheHostInterfaceStops : Prop :=
  ∀ (s : State) (r : HostRequest) (rest : List HostRequest), s.portWord = none → s.hostIn = r :: rest → r.wait = 0 →
    1 ≤ (opField r.word).toNat → (opField r.word).toNat ≤ 6 → step s = .refused .portCodeOnHost

/-- R32, read by inference (assumption 7): with no session and nothing due, SBBS stays as it is, while a host command
that is to come comes one step nearer. -/
def Obligations.IdleMachineStaysAsItIs : Prop :=
  (∀ s : State, Quiet s → s.phase = .idle → step s = .next s) ∧
  (∀ s : State, NothingDue s → s.phase = .idle → step s = .next { s with hostIn := oneStepNearer s.hostIn })

/-- R142, R246 (a step of its own, assumption 11): once MATCH has its value and no host command is due, the RUN
returns `(C, MATCH)` and the session is destroyed; else only a command that is to come comes one step nearer. -/
def Obligations.RunReturnsAndTheSessionIsDestroyed : Prop :=
  ∀ (s : State) (ss : Session) (v : Bool), NothingDue s → s.phase = .verify → s.session = some ss →
    ss.matched = some v →
    step s = .next { s with
      phase := .idle, session := none, replies := s.replies ++ [.run ss.capture v]
      hostIn := oneStepNearer s.hostIn }

/-! ### Reset and invariants -/

/-- R230, R40, the spec's choice (92 D23): power-up is phase `IDLE` with no session. -/
def Obligations.PowerUpIsIdleWithoutASession : Prop :=
  State.reset.phase = .idle ∧ State.reset.session = none

/-- The machine's invariant holds at power-up (R40, R230). -/
def Obligations.PowerUpIsWellFormed : Prop := State.reset.wf = true

/-- R24, R29, R30, R31, R33, R40: every step keeps the invariant: a session exists in every phase but `IDLE`, its pin
assignment is legal, its position is 0 to 781, and HANDLE, LAST_STATUS and MATCH have values only when R40 says so. -/
def Obligations.EveryStepKeepsTheInvariant : Prop :=
  ∀ s t : State, s.wf = true → step s = .next t → t.wf = true

/-- R110, R144: from a state of the invariant a step stops only where the port never answers or the host sends a port
operation's code: with neither, it completes. -/
def Obligations.OnlyASilentPortOrAForeignWordStops : Prop :=
  ∀ s : State, s.wf = true → (∀ rest, s.portPlan ≠ none :: rest) →
    (∀ r rest, s.hostIn = r :: rest → isPortCode (opField r.word) = false) → ∃ t, step s = .next t

/-- R23, R25, R68: a session's pin assignment, pattern and log target never change while it lasts. -/
def Obligations.PinsAndPatternAreConstantInASession : Prop :=
  ∀ (s t : State) (ss : Session), s.wf = true → s.session = some ss → step s = .next t →
    t.session = none ∨
      ∃ ss', t.session = some ss' ∧ ss'.pins = ss.pins ∧ ss'.pattern = ss.pattern ∧ ss'.log = ss.log

/-- R33: the position advances by exactly 1 after each port operation is answered, whatever the answer, and after 781
the phase becomes `VERIFY`; serving a host command and the VERIFY phase never move it. -/
def Obligations.PositionAdvancesByExactlyOne : Prop :=
  ∀ (s t : State) (ss : Session), s.wf = true → s.session = some ss → step s = .next t →
    (s.phase = .sched → (∀ r rest, s.hostIn = r :: rest → 0 < r.wait) → ss.k < 781 →
      t.phase = .sched ∧ ∃ ss', t.session = some ss' ∧ ss'.k = ss.k + 1) ∧
    (s.phase = .sched → (∀ r rest, s.hostIn = r :: rest → 0 < r.wait) → ss.k = 781 → t.phase = .verify) ∧
    (s.phase = .sched → (∃ r rest, s.hostIn = r :: rest ∧ r.wait = 0) → t.phase = .sched ∧ t.session = some ss) ∧
    (s.phase = .verify → ∀ ss', t.session = some ss' → ss'.k = ss.k)

/-- R26, R156: an element of the Captured Array changes only at a SAMPLE of its own index that was answered ok. -/
def Obligations.CaptureChangesOnlyAtAnOkSample : Prop :=
  ∀ (s t : State) (ss ss' : Session) (i : Fin 96), s.wf = true → s.session = some ss → step s = .next t →
    t.session = some ss' → elem ss'.capture i ≠ elem ss.capture i →
    s.phase = .sched ∧ (∃ m, ss.k = samplePosition m i) ∧ ∃ st, ss'.lastStatus = some st ∧ st.isOk = true

/-- R200, R204: a step of the schedule, also one taken while a host command is to come, appends exactly one event, of
the kind that belongs to its position, when the port's status is not ok, and none when it is. -/
def Obligations.OneEventPerFailingOperation : Prop :=
  ∀ (s t : State) (ss : Session), s.wf = true → NothingDue s → Running s ss → step s = .next t →
    ∃ a s1, Answers s a s1 ∧ t.diag = s.diag ++ errorEvents (errorKindAt ss.k) ss.log ss.k a.status

/-- R38: the diagnostic output is append-only; so are the model's own lists of the records of R80 (assumption 26) and
of the results of R82 and R213 (assumption 15). -/
def Obligations.OutputsOnlyGrow : Prop :=
  ∀ s t : State, step s = .next t →
    s.trace <+: t.trace ∧ s.diag <+: t.diag ∧ s.replies <+: t.replies

/-! ### The schedule -/

/-- R163: for every pin assignment and pattern the schedule has 782 operations, 1 OPEN, 1 RESET, 1 SETMODE, 586 WRITE,
192 READ and 1 CLOSE, and each pass has 388. -/
def Obligations.ScheduleCounts : Prop :=
  ∀ (p : Pins) (x : Bits96),
    (referenceListing p x).length = 782 ∧
    ((referenceListing p x).map PortOp.code).count 0x1#4 = 1 ∧
    ((referenceListing p x).map PortOp.code).count 0x2#4 = 1 ∧
    ((referenceListing p x).map PortOp.code).count 0x3#4 = 1 ∧
    ((referenceListing p x).map PortOp.code).count 0x4#4 = 586 ∧
    ((referenceListing p x).map PortOp.code).count 0x5#4 = 192 ∧
    ((referenceListing p x).map PortOp.code).count 0x6#4 = 1 ∧
    (expand p x .pass).length = 388

/-- R162: which operation is at each position depends on neither the pattern nor the pin assignment. -/
def Obligations.ScheduleIsIndependentOfData : Prop :=
  ∀ (p q : Pins) (x y : Bits96),
    (referenceListing p x).map PortOp.code = (referenceListing q y).map PortOp.code

/-- R73: with a legal pin assignment the eight level triples give eight bytes, and every WRITE of the schedule is one
of six of them, never one with CS and CK high together. -/
def Obligations.ScheduleWritesOnlySixBytes : Prop :=
  ∀ (p : Pins) (x : Bits96), p.legal = true →
    (∀ a b c a' b' c', p.enc a b c = p.enc a' b' c' → a = a' ∧ b = b' ∧ c = c') ∧
    (∀ rb, PortOp.write rb ∈ referenceListing p x →
      (rb = p.enc false false false ∨ rb = p.enc true false false ∨ rb = p.enc false false true ∨
        rb = p.enc false true false ∨ rb = p.enc false true true ∨ rb = p.enc true false true) ∧
      rb ≠ p.enc true true false ∧ rb ≠ p.enc true true true)

/-- R58: consecutive register bytes differ in at most one pin, except at PASS_START of pass `m = 1`, which follows
`enc(1,0,P[95])` with `enc(0,0,0)`. The first WRITE, WAKE_LO, has no predecessor among them. -/
def Obligations.ConsecutiveBytesDifferInOnePin : Prop :=
  ∀ (p : Pins) (x : Bits96) (k k' : Nat) (b b' : Byte), p.legal = true → k < k' →
    (referenceListing p x)[k]? = some (.write b) → (referenceListing p x)[k']? = some (.write b') →
    (∀ j, k < j → j < k' → (referenceListing p x)[j]? = some .read) →
    (k' ≠ 393 → ∃ q : Pin, ∀ q' : Pin, q' ≠ q → bitAt b q' = bitAt b' q') ∧
    (k' = 393 → b = p.enc true false (elem x 95) ∧ b' = p.enc false false false)

/-- R164: counted between consecutive register bytes, CK rises and falls 192 times, CS rises 5 times and falls 4
times; CK changes only with CS low and DOUT unchanged. -/
def Obligations.EdgesOnTheDrivenPins : Prop :=
  ∀ (p : Pins) (x : Bits96), p.legal = true →
    edgeCount p.ck false (writtenBytes (referenceListing p x)) = 192 ∧
    edgeCount p.ck true (writtenBytes (referenceListing p x)) = 192 ∧
    edgeCount p.cs false (writtenBytes (referenceListing p x)) = 5 ∧
    edgeCount p.cs true (writtenBytes (referenceListing p x)) = 4 ∧
    ∀ bb ∈ (writtenBytes (referenceListing p x)).zip (writtenBytes (referenceListing p x)).tail,
      bitAt bb.1 p.ck ≠ bitAt bb.2 p.ck →
        bitAt bb.1 p.cs = false ∧ bitAt bb.2 p.cs = false ∧ bitAt bb.1 p.dout = bitAt bb.2 p.dout

/-- R153 to R156, R165: in each iteration of each pass the four operations are PRESENT, RISE, FALL and the READ, in
that order, so that every sample is taken with CS low, CK low and DOUT at `P[i]`. -/
def Obligations.IterationOrderAndSamplingPoint : Prop :=
  ∀ (p : Pins) (x : Bits96) (m : Fin 2) (i : Fin 96),
    (referenceListing p x)[samplePosition m i - 3]? = some (.write (p.enc false false (elem x i))) ∧
    (referenceListing p x)[samplePosition m i - 2]? = some (.write (p.enc false true (elem x i))) ∧
    (referenceListing p x)[samplePosition m i - 1]? = some (.write (p.enc false false (elem x i))) ∧
    (referenceListing p x)[samplePosition m i]? = some .read

/-! ### A whole RUN -/

/-- R142, R144, R166, R246: an accepted RUN whose 782 operations the port answers returns, and for each `i` the
returned `C[i]` is the DIN bit of SAMPLE(i) of pass 1 if that READ was ok, else that of pass 0 if that one was, else
`CAPTURE_INIT[i]`; MATCH says whether the array equals the pattern; SBBS is idle again without a session. The number
of steps is assumption 11. -/
def Obligations.RunReturnsTheFinalCapture : Prop :=
  ∀ (s : State) (pins : Pins) (x : Bits96) (log : LogTarget) (answers : List PortAnswer)
    (rest : List (Option PortAnswer)), pins.legal = true → ReadyToRun s answers rest →
    ∃ u c, RunsTo s pins x log u ∧ u.phase = .idle ∧ u.session = none ∧ u.portPlan = rest ∧
      u.replies = s.replies ++ [.run c (decide (x = c))] ∧
      ∀ (i : Fin 96) (a0 a1 : PortAnswer),
        answers[samplePosition 0 i]? = some a0 → answers[samplePosition 1 i]? = some a1 →
        elem c i = if a1.status.isOk then bitAt a1.levels pins.din
          else if a0.status.isOk then bitAt a0.levels pins.din else elem Config.captureInit i

/-- R145, R160, R171: the port operations of an accepted RUN are, one by one and in order, those of the reference
pseudocode, whatever the port answers; each is recorded with its position and its answer's status. The number of steps
is assumption 11. -/
def Obligations.RunIssuesExactlyTheReferenceSchedule : Prop :=
  ∀ (s : State) (pins : Pins) (x : Bits96) (log : LogTarget) (answers : List PortAnswer)
    (rest : List (Option PortAnswer)), pins.legal = true → ReadyToRun s answers rest →
    ∃ u records, RunsTo s pins x log u ∧ u.trace = s.trace ++ records ∧
      records.map PortRecord.op = referenceListing pins x ∧
      records.map PortRecord.k = List.range 782 ∧
      records.map PortRecord.status = answers.map PortAnswer.status

/-- R29, R114 (the spec's reading, 92 D25): the handle the port returned to OPEN, meaningful or not, is the handle
operand of every later operation of the RUN. -/
def Obligations.RunPassesTheHandleUnchanged : Prop :=
  ∀ (s : State) (pins : Pins) (x : Bits96) (log : LogTarget) (answers : List PortAnswer)
    (rest : List (Option PortAnswer)), pins.legal = true → ReadyToRun s answers rest →
    ∃ u records a, RunsTo s pins x log u ∧ u.trace = s.trace ++ records ∧ answers.head? = some a ∧
      records.length = 782 ∧ ∀ r ∈ records, r.op ≠ .openPort → r.handle = some a.handle

/-- R66, R182, R204, R207: an accepted RUN appends, in schedule order, one event for each operation whose status is
not ok and none for any other, and after them the trace of the comparison of the pattern with the very array that the
RUN returns. That the diagnostic output holds these entries and no more is the spec's choice (92 D14, assumption 20).
-/
def Obligations.RunLogsEachFailureInOrder : Prop :=
  ∀ (s : State) (pins : Pins) (x : Bits96) (log : LogTarget) (answers : List PortAnswer)
    (rest : List (Option PortAnswer)), pins.legal = true → ReadyToRun s answers rest →
    ∃ u c, RunsTo s pins x log u ∧ u.replies = s.replies ++ [.run c (decide (x = c))] ∧
      u.diag = s.diag ++
        (answers.zipIdx.flatMap fun ak => errorEvents (errorKindAt ak.2) log ak.2 ak.1.status) ++
        [{ log := some log, event := .trace x c (decide (x = c)) }]

/-- R126, R205: with a port that answers every operation with a status that is not ok, a RUN still issues all 782
operations, appends 782 error events and the trace, and returns `CAPTURE_INIT`. The number of steps is assumption 11,
and that the output holds no more is 92 D14 (assumption 20). -/
def Obligations.FailedDeviceRunReturnsTheInitialCapture : Prop :=
  ∀ (s : State) (pins : Pins) (x : Bits96) (log : LogTarget) (answers : List PortAnswer)
    (rest : List (Option PortAnswer)), pins.legal = true → ReadyToRun s answers rest →
    (∀ a ∈ answers, a.status.isOk = false) →
    ∃ u, RunsTo s pins x log u ∧ u.trace.length = s.trace.length + 782 ∧
      u.diag.length = s.diag.length + 783 ∧
      u.replies = s.replies ++ [.run Config.captureInit (decide (x = Config.captureInit))]
end

