-- ==== Sys2Proof/Laws/Operands.lean ====
section
/-!
SUPPORT. What the bit and element operations do, one read after one write.
-/

namespace Sys2Proof

/-- A one-bit mask holds its one bit only. -/
theorem getLsbD_one_shiftLeft {w : Nat} (i j : Nat) (hi : i < w) :
    (1#w <<< i).getLsbD j = decide (j = i) := by
  by_cases h : j = i
  · subst h
    simp [hi]
  · simp only [BitVec.getLsbD_shiftLeft, BitVec.getLsbD_one, h, decide_false]
    by_cases hlt : j < i
    · simp [hlt]
    · have : j - i ≠ 0 := by omega
      simp [this]

/-- Reading a bit of a byte after `b[p] <- v`. -/
theorem bitAt_setBit (b : Byte) (p q : Pin) (v : Bool) :
    bitAt (setBit b p v) q = if q = p then v else bitAt b q := by
  have hq : q.toNat < 8 := q.isLt
  have hp : p.toNat < 8 := p.isLt
  have hne : (q.toNat = p.toNat) ↔ (q = p) := BitVec.toNat_inj
  unfold bitAt setBit
  cases v
  · simp only [Bool.false_eq_true, if_false, BitVec.getLsbD_and, BitVec.getLsbD_not,
      getLsbD_one_shiftLeft _ _ hp, hq, hne]
    by_cases h : q = p <;> simp [h]
  · simp only [if_true, BitVec.getLsbD_or, getLsbD_one_shiftLeft _ _ hp, hne]
    by_cases h : q = p <;> simp [h]

/-- Reading an element after `C[i] <- v`. -/
theorem elem_setElem (x : Bits96) (i j : Fin 96) (v : Bool) :
    elem (setElem x i v) j = if j = i then v else elem x j := by
  have hj := j.isLt
  have hi := i.isLt
  have hne : (j.val = i.val) ↔ (j = i) := Fin.ext_iff.symm
  unfold elem setElem
  cases v
  · simp only [Bool.false_eq_true, if_false, BitVec.getLsbD_and, BitVec.getLsbD_not,
      getLsbD_one_shiftLeft _ _ hi, hj, hne]
    by_cases h : j = i <;> simp [h]
  · simp only [if_true, BitVec.getLsbD_or, getLsbD_one_shiftLeft _ _ hi, hne]
    by_cases h : j = i <;> simp [h]

/-- Two arrays with the same 96 elements are equal. -/
theorem eq_of_elem {x y : Bits96} (h : ∀ i, elem x i = elem y i) : x = y := by
  apply BitVec.eq_of_getLsbD_eq
  intro i hi
  exact h ⟨i, hi⟩

/-- The low part of a concatenation. -/
theorem extract_low {n m : Nat} (a : BitVec n) (b : BitVec m) : (a ++ b).extractLsb' 0 m = b := by
  apply BitVec.eq_of_getLsbD_eq
  intro i hi
  simp [BitVec.getLsbD_append, hi]

/-- A field of a concatenation that lies in the high part. -/
theorem extract_high {n m : Nat} (a : BitVec n) (b : BitVec m) (s l : Nat) :
    (a ++ b).extractLsb' (m + s) l = a.extractLsb' s l := by
  apply BitVec.eq_of_getLsbD_eq
  intro i hi
  have h1 : ¬ m + s + i < m := by omega
  have h2 : m + s + i - m = s + i := by omega
  simp [BitVec.getLsbD_append, hi, h2]
  intro h3
  omega

/-- A whole vector is its own field. -/
theorem extract_all {n : Nat} (a : BitVec n) : a.extractLsb' 0 n = a := by
  apply BitVec.eq_of_getLsbD_eq
  intro i hi
  simp [hi]

/-- A pin assignment survives packing into PINCFG (R78). -/
@[simp] theorem unpackPins_packPins (p : Pins) : unpackPins (packPins p) = p := by
  cases p with
  | mk cs ck dout din =>
    simp only [unpackPins, packPins, Pins.mk.injEq]
    refine ⟨extract_low _ _, ?_, ?_, ?_⟩
    · exact (extract_high _ _ 0 _).trans (extract_low _ _)
    · exact (extract_high _ _ 3 _).trans ((extract_high _ _ 0 _).trans (extract_low _ _))
    · exact (extract_high _ _ 6 _).trans ((extract_high _ _ 3 _).trans ((extract_high _ _ 0 _).trans (extract_all _)))

/-- The fields of a PT record word (R80). -/
@[simp] theorem opField_ptWord (c : OpCode) (d : Byte) : opField (ptWord c d) = c :=
  (extract_high _ _ 4 _).trans ((extract_high _ _ 0 _).trans (extract_all _))

@[simp] theorem zeroField_ptWord (c : OpCode) (d : Byte) : zeroField (ptWord c d) = 0 :=
  (extract_high _ _ 0 _).trans (extract_low _ _)

@[simp] theorem dataField_ptWord (c : OpCode) (d : Byte) : dataField (ptWord c d) = d :=
  extract_low _ _

/-- A word is its high bits followed by its low bits. -/
theorem append_extractLsb {n m : Nat} (w : BitVec (n + m)) : w.extractLsb' m n ++ w.extractLsb' 0 m = w := by
  apply BitVec.eq_of_getLsbD_eq
  intro i hi
  rw [BitVec.getLsbD_append]
  split
  · next h => simp [h]
  · next h => simp [show m + (i - m) = i by omega, show i - m < n by omega]

/-- A field of a field is a field. -/
theorem extract_extract {n : Nat} (w : BitVec n) (s l t k : Nat) (h : t + k ≤ l) :
    (w.extractLsb' s l).extractLsb' t k = w.extractLsb' (s + t) k := by
  apply BitVec.eq_of_getLsbD_eq
  intro i hi
  simp [hi, show t + i < l by omega, Nat.add_assoc]

/-- A word whose bits 11 to 8 are zero is the PT word of its code and data byte. -/
theorem ptWord_fields (w : OpWord) (h : zeroField w = 0) : ptWord (opField w) (dataField w) = w := by
  unfold ptWord
  rw [show (0#4 : BitVec 4) = zeroField w from h.symm]
  have h1 : zeroField w ++ dataField w = w.extractLsb' 0 12 := by
    have := append_extractLsb (n := 4) (m := 8) (w.extractLsb' 0 12)
    rwa [extract_extract _ _ _ _ _ (by omega), extract_extract _ _ _ _ _ (by omega)] at this
  have h2 := append_extractLsb (n := 4) (m := 12) w
  rw [← h1] at h2
  rw [BitVec.append_assoc]
  exact h2

/-- Packing the pins a PINCFG field holds gives the field back. -/
theorem packPins_unpackPins (c : BitVec 12) : packPins (unpackPins c) = c := by
  have h := append_extractLsb (n := 9) (m := 3) c
  have h1 := append_extractLsb (n := 6) (m := 3) (c.extractLsb' 3 9)
  have h2 := append_extractLsb (n := 3) (m := 3) ((c.extractLsb' 3 9).extractLsb' 3 6)
  simp only [extract_extract _ _ _ _ _ (show 0 + 3 ≤ 9 by omega), extract_extract _ _ _ _ _ (show 3 + 6 ≤ 9 by omega),
    extract_extract _ _ _ _ _ (show 3 + 3 ≤ 6 by omega), extract_extract _ _ _ _ _ (show 0 + 3 ≤ 6 by omega)] at h1 h2
  unfold packPins unpackPins
  exact (congrArg (· ++ c.extractLsb' 0 3) ((congrArg (· ++ c.extractLsb' 3 3) h2).trans h1)).trans h

/-- The bits of ENCODE's byte, one at a time (R100): a later pin of the pseudocode wins where pins collide. -/
theorem bitAt_encodeByte (csPin ckPin doutPin q : Pin) (cs ck dout : Bool) :
    bitAt (encodeByte csPin ckPin doutPin cs ck dout) q =
      if q = doutPin then dout else if q = ckPin then ck else if q = csPin then cs else false := by
  simp only [encodeByte, bitAt_setBit]
  simp [bitAt]

end Sys2Proof
end

