-- ==== Sys2Proof/Laws/State.lean ====
section
/-!
SUPPORT. What each named update does to each field, true by `rfl`: one lemma per field per update, so that no
later proof unfolds a record update.
-/

namespace Sys2Proof.Machine

@[simp] theorem State.reply_phase (s : State) (r : Reply) : (s.reply r).phase = s.phase := rfl
@[simp] theorem State.reply_session (s : State) (r : Reply) : (s.reply r).session = s.session := rfl
@[simp] theorem State.reply_port (s : State) (r : Reply) : (s.reply r).port = s.port := rfl
@[simp] theorem State.reply_trace (s : State) (r : Reply) : (s.reply r).trace = s.trace := rfl
@[simp] theorem State.reply_diag (s : State) (r : Reply) : (s.reply r).diag = s.diag := rfl
@[simp] theorem State.reply_replies (s : State) (r : Reply) : (s.reply r).replies = s.replies ++ [r] := rfl
@[simp] theorem State.reply_portPlan (s : State) (r : Reply) : (s.reply r).portPlan = s.portPlan := rfl
@[simp] theorem State.reply_answersTaken (s : State) (r : Reply) : (s.reply r).answersTaken = s.answersTaken := rfl
@[simp] theorem State.reply_hostIn (s : State) (r : Reply) : (s.reply r).hostIn = s.hostIn := rfl
@[simp] theorem State.reply_portWord (s : State) (r : Reply) : (s.reply r).portWord = s.portWord := rfl
@[simp] theorem State.reply_settleDue (s : State) (r : Reply) : (s.reply r).settleDue = s.settleDue := rfl

@[simp] theorem State.refuse_phase (s : State) (r : HostRefusal) : (s.refuse r).phase = s.phase := rfl
@[simp] theorem State.refuse_session (s : State) (r : HostRefusal) : (s.refuse r).session = s.session := rfl
@[simp] theorem State.refuse_port (s : State) (r : HostRefusal) : (s.refuse r).port = s.port := rfl
@[simp] theorem State.refuse_trace (s : State) (r : HostRefusal) : (s.refuse r).trace = s.trace := rfl
@[simp] theorem State.refuse_diag (s : State) (r : HostRefusal) : (s.refuse r).diag = s.diag := rfl
@[simp] theorem State.refuse_replies (s : State) (r : HostRefusal) : (s.refuse r).replies = s.replies ++ [.refused r] := rfl
@[simp] theorem State.refuse_portPlan (s : State) (r : HostRefusal) : (s.refuse r).portPlan = s.portPlan := rfl
@[simp] theorem State.refuse_answersTaken (s : State) (r : HostRefusal) : (s.refuse r).answersTaken = s.answersTaken := rfl
@[simp] theorem State.refuse_hostIn (s : State) (r : HostRefusal) : (s.refuse r).hostIn = s.hostIn := rfl
@[simp] theorem State.refuse_portWord (s : State) (r : HostRefusal) : (s.refuse r).portWord = s.portWord := rfl
@[simp] theorem State.refuse_settleDue (s : State) (r : HostRefusal) : (s.refuse r).settleDue = s.settleDue := rfl

@[simp] theorem State.appendDiag_phase (s : State) (l : List DiagLine) : (s.appendDiag l).phase = s.phase := rfl
@[simp] theorem State.appendDiag_session (s : State) (l : List DiagLine) : (s.appendDiag l).session = s.session := rfl
@[simp] theorem State.appendDiag_port (s : State) (l : List DiagLine) : (s.appendDiag l).port = s.port := rfl
@[simp] theorem State.appendDiag_trace (s : State) (l : List DiagLine) : (s.appendDiag l).trace = s.trace := rfl
@[simp] theorem State.appendDiag_diag (s : State) (l : List DiagLine) : (s.appendDiag l).diag = s.diag ++ l := rfl
@[simp] theorem State.appendDiag_replies (s : State) (l : List DiagLine) : (s.appendDiag l).replies = s.replies := rfl
@[simp] theorem State.appendDiag_portPlan (s : State) (l : List DiagLine) : (s.appendDiag l).portPlan = s.portPlan := rfl
@[simp] theorem State.appendDiag_answersTaken (s : State) (l : List DiagLine) : (s.appendDiag l).answersTaken = s.answersTaken := rfl
@[simp] theorem State.appendDiag_hostIn (s : State) (l : List DiagLine) : (s.appendDiag l).hostIn = s.hostIn := rfl
@[simp] theorem State.appendDiag_portWord (s : State) (l : List DiagLine) : (s.appendDiag l).portWord = s.portWord := rfl
@[simp] theorem State.appendDiag_settleDue (s : State) (l : List DiagLine) : (s.appendDiag l).settleDue = s.settleDue := rfl

@[simp] theorem State.beginSession_phase (s : State) (ss : Session) : (s.beginSession ss).phase = .sched := rfl
@[simp] theorem State.beginSession_session (s : State) (ss : Session) : (s.beginSession ss).session = some ss := rfl
@[simp] theorem State.beginSession_port (s : State) (ss : Session) : (s.beginSession ss).port = s.port := rfl
@[simp] theorem State.beginSession_trace (s : State) (ss : Session) : (s.beginSession ss).trace = s.trace := rfl
@[simp] theorem State.beginSession_diag (s : State) (ss : Session) : (s.beginSession ss).diag = s.diag := rfl
@[simp] theorem State.beginSession_replies (s : State) (ss : Session) : (s.beginSession ss).replies = s.replies := rfl
@[simp] theorem State.beginSession_portPlan (s : State) (ss : Session) : (s.beginSession ss).portPlan = s.portPlan := rfl
@[simp] theorem State.beginSession_answersTaken (s : State) (ss : Session) : (s.beginSession ss).answersTaken = s.answersTaken := rfl
@[simp] theorem State.beginSession_hostIn (s : State) (ss : Session) : (s.beginSession ss).hostIn = s.hostIn := rfl
@[simp] theorem State.beginSession_portWord (s : State) (ss : Session) : (s.beginSession ss).portWord = s.portWord := rfl
@[simp] theorem State.beginSession_settleDue (s : State) (ss : Session) : (s.beginSession ss).settleDue = s.settleDue := rfl

@[simp] theorem State.endSession_phase (s : State) (c : Bits96) (m : Bool) : (s.endSession c m).phase = .idle := rfl
@[simp] theorem State.endSession_session (s : State) (c : Bits96) (m : Bool) : (s.endSession c m).session = none := rfl
@[simp] theorem State.endSession_port (s : State) (c : Bits96) (m : Bool) : (s.endSession c m).port = s.port := rfl
@[simp] theorem State.endSession_trace (s : State) (c : Bits96) (m : Bool) : (s.endSession c m).trace = s.trace := rfl
@[simp] theorem State.endSession_diag (s : State) (c : Bits96) (m : Bool) : (s.endSession c m).diag = s.diag := rfl
@[simp] theorem State.endSession_replies (s : State) (c : Bits96) (m : Bool) : (s.endSession c m).replies = s.replies ++ [.run c m] := rfl
@[simp] theorem State.endSession_portPlan (s : State) (c : Bits96) (m : Bool) : (s.endSession c m).portPlan = s.portPlan := rfl
@[simp] theorem State.endSession_answersTaken (s : State) (c : Bits96) (m : Bool) : (s.endSession c m).answersTaken = s.answersTaken := rfl
@[simp] theorem State.endSession_hostIn (s : State) (c : Bits96) (m : Bool) : (s.endSession c m).hostIn = s.hostIn := rfl
@[simp] theorem State.endSession_portWord (s : State) (c : Bits96) (m : Bool) : (s.endSession c m).portWord = s.portWord := rfl
@[simp] theorem State.endSession_settleDue (s : State) (c : Bits96) (m : Bool) : (s.endSession c m).settleDue = s.settleDue := rfl

@[simp] theorem State.answered_phase (s : State) (op : PortOp) (ss : Session) (a : PortAnswer) (ss' : Session) (p : Phase) : (s.answered op ss a ss' p).phase = p := rfl
@[simp] theorem State.answered_session (s : State) (op : PortOp) (ss : Session) (a : PortAnswer) (ss' : Session) (p : Phase) : (s.answered op ss a ss' p).session = some ss' := rfl
@[simp] theorem State.answered_port (s : State) (op : PortOp) (ss : Session) (a : PortAnswer) (ss' : Session) (p : Phase) : (s.answered op ss a ss' p).port = portAfter op a s.port := rfl
@[simp] theorem State.answered_trace (s : State) (op : PortOp) (ss : Session) (a : PortAnswer) (ss' : Session) (p : Phase) : (s.answered op ss a ss' p).trace = s.trace ++ [recordOf op ss a s.settleDue] := rfl
@[simp] theorem State.answered_diag (s : State) (op : PortOp) (ss : Session) (a : PortAnswer) (ss' : Session) (p : Phase) : (s.answered op ss a ss' p).diag = s.diag ++ raised op ss a := rfl
@[simp] theorem State.answered_replies (s : State) (op : PortOp) (ss : Session) (a : PortAnswer) (ss' : Session) (p : Phase) : (s.answered op ss a ss' p).replies = s.replies := rfl
@[simp] theorem State.answered_portPlan (s : State) (op : PortOp) (ss : Session) (a : PortAnswer) (ss' : Session) (p : Phase) : (s.answered op ss a ss' p).portPlan = s.portPlan := rfl
@[simp] theorem State.answered_answersTaken (s : State) (op : PortOp) (ss : Session) (a : PortAnswer) (ss' : Session) (p : Phase) : (s.answered op ss a ss' p).answersTaken = s.answersTaken := rfl
@[simp] theorem State.answered_hostIn (s : State) (op : PortOp) (ss : Session) (a : PortAnswer) (ss' : Session) (p : Phase) : (s.answered op ss a ss' p).hostIn = s.hostIn := rfl
@[simp] theorem State.answered_portWord (s : State) (op : PortOp) (ss : Session) (a : PortAnswer) (ss' : Session) (p : Phase) : (s.answered op ss a ss' p).portWord = s.portWord := rfl
@[simp] theorem State.answered_settleDue (s : State) (op : PortOp) (ss : Session) (a : PortAnswer) (ss' : Session) (p : Phase) : (s.answered op ss a ss' p).settleDue = settleAfter op := rfl

@[simp] theorem Session.advance_pins (ss : Session) (a : PortAnswer) : (ss.advance a).pins = ss.pins := rfl
@[simp] theorem Session.advance_pattern (ss : Session) (a : PortAnswer) : (ss.advance a).pattern = ss.pattern := rfl
@[simp] theorem Session.advance_capture (ss : Session) (a : PortAnswer) : (ss.advance a).capture = ss.capture := rfl
@[simp] theorem Session.advance_handle (ss : Session) (a : PortAnswer) : (ss.advance a).handle = ss.handle := rfl
@[simp] theorem Session.advance_lastStatus (ss : Session) (a : PortAnswer) : (ss.advance a).lastStatus = some a.status := rfl
@[simp] theorem Session.advance_matched (ss : Session) (a : PortAnswer) : (ss.advance a).matched = ss.matched := rfl
@[simp] theorem Session.advance_log (ss : Session) (a : PortAnswer) : (ss.advance a).log = ss.log := rfl
@[simp] theorem Session.advance_k (ss : Session) (a : PortAnswer) : (ss.advance a).k = ss.k + 1 := rfl

@[simp] theorem Session.advanceOpen_pins (ss : Session) (a : PortAnswer) : (ss.advanceOpen a).pins = ss.pins := rfl
@[simp] theorem Session.advanceOpen_pattern (ss : Session) (a : PortAnswer) : (ss.advanceOpen a).pattern = ss.pattern := rfl
@[simp] theorem Session.advanceOpen_capture (ss : Session) (a : PortAnswer) : (ss.advanceOpen a).capture = ss.capture := rfl
@[simp] theorem Session.advanceOpen_handle (ss : Session) (a : PortAnswer) : (ss.advanceOpen a).handle = some a.handle := rfl
@[simp] theorem Session.advanceOpen_lastStatus (ss : Session) (a : PortAnswer) : (ss.advanceOpen a).lastStatus = some a.status := rfl
@[simp] theorem Session.advanceOpen_matched (ss : Session) (a : PortAnswer) : (ss.advanceOpen a).matched = ss.matched := rfl
@[simp] theorem Session.advanceOpen_log (ss : Session) (a : PortAnswer) : (ss.advanceOpen a).log = ss.log := rfl
@[simp] theorem Session.advanceOpen_k (ss : Session) (a : PortAnswer) : (ss.advanceOpen a).k = ss.k + 1 := rfl

@[simp] theorem Session.closed_pins (ss : Session) (a : PortAnswer) : (ss.closed a).pins = ss.pins := rfl
@[simp] theorem Session.closed_pattern (ss : Session) (a : PortAnswer) : (ss.closed a).pattern = ss.pattern := rfl
@[simp] theorem Session.closed_capture (ss : Session) (a : PortAnswer) : (ss.closed a).capture = ss.capture := rfl
@[simp] theorem Session.closed_handle (ss : Session) (a : PortAnswer) : (ss.closed a).handle = ss.handle := rfl
@[simp] theorem Session.closed_lastStatus (ss : Session) (a : PortAnswer) : (ss.closed a).lastStatus = some a.status := rfl
@[simp] theorem Session.closed_matched (ss : Session) (a : PortAnswer) : (ss.closed a).matched = ss.matched := rfl
@[simp] theorem Session.closed_log (ss : Session) (a : PortAnswer) : (ss.closed a).log = ss.log := rfl
@[simp] theorem Session.closed_k (ss : Session) (a : PortAnswer) : (ss.closed a).k = ss.k := rfl

@[simp] theorem Session.advanceSample_pins (ss : Session) (i : Fin 96) (a : PortAnswer) :
    (ss.advanceSample i a).pins = ss.pins := by
  unfold Session.advanceSample; split <;> simp_all
@[simp] theorem Session.advanceSample_pattern (ss : Session) (i : Fin 96) (a : PortAnswer) :
    (ss.advanceSample i a).pattern = ss.pattern := by
  unfold Session.advanceSample; split <;> simp_all
@[simp] theorem Session.advanceSample_capture (ss : Session) (i : Fin 96) (a : PortAnswer) :
    (ss.advanceSample i a).capture = if a.status.isOk then setElem ss.capture i (dinLevel a.levels ss.pins.din) else ss.capture := by
  unfold Session.advanceSample; split <;> simp_all
@[simp] theorem Session.advanceSample_handle (ss : Session) (i : Fin 96) (a : PortAnswer) :
    (ss.advanceSample i a).handle = ss.handle := by
  unfold Session.advanceSample; split <;> simp_all
@[simp] theorem Session.advanceSample_lastStatus (ss : Session) (i : Fin 96) (a : PortAnswer) :
    (ss.advanceSample i a).lastStatus = some a.status := by
  unfold Session.advanceSample; split <;> simp_all
@[simp] theorem Session.advanceSample_matched (ss : Session) (i : Fin 96) (a : PortAnswer) :
    (ss.advanceSample i a).matched = ss.matched := by
  unfold Session.advanceSample; split <;> simp_all
@[simp] theorem Session.advanceSample_log (ss : Session) (i : Fin 96) (a : PortAnswer) :
    (ss.advanceSample i a).log = ss.log := by
  unfold Session.advanceSample; split <;> simp_all
@[simp] theorem Session.advanceSample_k (ss : Session) (i : Fin 96) (a : PortAnswer) :
    (ss.advanceSample i a).k = ss.k + 1 := by
  unfold Session.advanceSample; split <;> simp_all

@[simp] theorem freshSession_pins (p : Pins) (x : Bits96) (l : LogTarget) : (freshSession p x l).pins = p := rfl
@[simp] theorem freshSession_pattern (p : Pins) (x : Bits96) (l : LogTarget) : (freshSession p x l).pattern = x := rfl
@[simp] theorem freshSession_capture (p : Pins) (x : Bits96) (l : LogTarget) : (freshSession p x l).capture = Config.captureInit := rfl
@[simp] theorem freshSession_handle (p : Pins) (x : Bits96) (l : LogTarget) : (freshSession p x l).handle = none := rfl
@[simp] theorem freshSession_lastStatus (p : Pins) (x : Bits96) (l : LogTarget) : (freshSession p x l).lastStatus = none := rfl
@[simp] theorem freshSession_matched (p : Pins) (x : Bits96) (l : LogTarget) : (freshSession p x l).matched = none := rfl
@[simp] theorem freshSession_log (p : Pins) (x : Bits96) (l : LogTarget) : (freshSession p x l).log = l := rfl
@[simp] theorem freshSession_k (p : Pins) (x : Bits96) (l : LogTarget) : (freshSession p x l).k = 0 := rfl

end Sys2Proof.Machine
end

