-- ==== Sys2Proof/Laws/Ops.lean ====
section
/-!
SUPPORT. Once for each shared operation, everything it can do: later proofs cite these instead of unfolding it.
-/

namespace Sys2Proof.Machine

/-- What taking an answer does. -/
theorem takeAnswer_eq_some (s : State) (a : PortAnswer) (s1 : State) :
    takeAnswer s = some (a, s1) ↔ Answers s a s1 := by
  unfold takeAnswer Answers
  constructor
  · intro h
    split at h
    · next a' rest hp =>
      simp only [Option.some.injEq, Prod.mk.injEq] at h
      obtain ⟨rfl, rfl⟩ := h
      exact .inl ⟨rest, hp, rfl⟩
    · cases h
    · next hp =>
      simp only [Option.some.injEq, Prod.mk.injEq] at h
      obtain ⟨rfl, rfl⟩ := h
      exact .inr ⟨hp, rfl, rfl⟩
  · rintro (⟨rest, hp, rfl⟩ | ⟨hp, rfl, rfl⟩) <;> simp [hp]

/-- The port never answers exactly when the plan says so. -/
theorem takeAnswer_eq_none (s : State) : takeAnswer s = none ↔ ∃ rest, s.portPlan = none :: rest := by
  unfold takeAnswer
  split <;> simp_all

/-- Taking an answer changes the plan and the counter of free answers, nothing else. -/
theorem answers_frame {s s1 : State} {a : PortAnswer} (h : Answers s a s1) :
    s1.phase = s.phase ∧ s1.session = s.session ∧ s1.port = s.port ∧ s1.trace = s.trace ∧ s1.diag = s.diag ∧
      s1.replies = s.replies ∧ s1.hostIn = s.hostIn ∧ s1.portWord = s.portWord ∧ s1.settleDue = s.settleDue := by
  rcases h with ⟨rest, -, rfl⟩ | ⟨-, -, rfl⟩ <;> simp

/-- What a port operation does when it is answered. -/
theorem transact_of_answers {s s1 : State} {ss : Session} {a : PortAnswer} (hr : Running s ss) (ha : Answers s a s1)
    (op : Session → PortOp) (next : Session → PortAnswer → Session) (phase' : Phase) :
    transact op next phase' s = .next (s1.answered (op ss) ss a (next ss a) phase') := by
  simp [transact, hr.1, hr.2, (takeAnswer_eq_some s a s1).2 ha]

/-- A port operation that the port never answers. -/
theorem transact_of_silence {s : State} {ss : Session} (hr : Running s ss) {rest : List (Option PortAnswer)}
    (hp : s.portPlan = none :: rest) (op : Session → PortOp) (next : Session → PortAnswer → Session) (phase' : Phase) :
    transact op next phase' s = .fault .portNeverAnswers := by
  simp [transact, hr.1, hr.2, (takeAnswer_eq_none s).2 ⟨rest, hp⟩]

/-- Everything a port operation can do: if it answers `next t`, a session was executing the schedule, the port
answered, and `t` is the state after that answer. -/
theorem transact_next {op : Session → PortOp} {next : Session → PortAnswer → Session} {phase' : Phase} {s t : State}
    (h : transact op next phase' s = .next t) :
    ∃ ss a s1, Running s ss ∧ Answers s a s1 ∧ t = s1.answered (op ss) ss a (next ss a) phase' := by
  unfold transact at h
  split at h
  · next ss hp hs =>
    split at h
    · next a s1 ha =>
      simp only [Host.Outcome.next.injEq] at h
      exact ⟨ss, a, s1, ⟨hp, hs⟩, (takeAnswer_eq_some s a s1).1 ha, h.symm⟩
    · cases h
  · cases h

/-- What a WRITE does when it is answered. -/
theorem writeByte_of_answers {s s1 : State} {ss : Session} {a : PortAnswer} (hr : Running s ss) (ha : Answers s a s1)
    (rb : Session → Byte) :
    writeByte rb s = .next (s1.answered (.write (rb ss)) ss a (ss.advance a) .sched) :=
  transact_of_answers hr ha _ _ _

/-- Everything a WRITE can do. -/
theorem writeByte_next {rb : Session → Byte} {s t : State} (h : writeByte rb s = .next t) :
    ∃ ss a s1, Running s ss ∧ Answers s a s1 ∧ t = s1.answered (.write (rb ss)) ss a (ss.advance a) .sched :=
  transact_next h

/-- Raising an error is one event for a status that is not ok, and none otherwise. -/
theorem raised_eq (op : PortOp) (ss : Session) (a : PortAnswer) :
    raised op ss a = errorEvents op.errorKind ss.log ss.k a.status := rfl

/-- Everything the VERIFY phase can do. -/
theorem verifyPhase_next {s t : State} (h : verifyPhase s = .next t) :
    ∃ ss, s.session = some ss ∧
      ((ss.matched = none ∧
          t = { s.appendDiag [traceLine (some ss.log) ss.pattern ss.capture] with
                session := some { ss with matched := some (verdict ss.pattern ss.capture) } }) ∨
        ∃ v, ss.matched = some v ∧ t = s.endSession ss.capture v) := by
  unfold verifyPhase at h
  split at h
  · cases h
  · next ss hs =>
    refine ⟨ss, hs, ?_⟩
    split at h
    · next hm =>
      simp only [Host.Outcome.next.injEq] at h
      exact .inl ⟨hm, h.symm⟩
    · next v hm =>
      simp only [Host.Outcome.next.injEq] at h
      exact .inr ⟨v, hm, h.symm⟩

/-- With no host command and no word of its own, a step is the sequencer's. -/
theorem fetch_of_quiet {s : State} (h : Quiet s) : fetch s = fetchSequencer s := by
  simp [fetch, fetchHost, h.1, h.2]

/-- With no host command due, a step is the sequencer's and a command that is to come comes one step nearer. -/
theorem fetch_of_nothingDue {s : State} (h : NothingDue s) :
    fetch s = fetchSequencer { s with hostIn := oneStepNearer s.hostIn } := by
  obtain ⟨hw, hd⟩ := h
  rcases s with ⟨_, _, _, _, _, _, _, _, _ | ⟨r, rest⟩, _, _⟩ <;> obtain rfl := hw
  · rfl
  · simp [fetch, fetchHost, oneStepNearer, (hd r rest rfl).ne']

/-- A quiet state has nothing due. -/
theorem Quiet.nothingDue {s : State} (h : Quiet s) : NothingDue s :=
  ⟨h.2, fun r rest hr => by simp [h.1] at hr⟩

/-- In phase `SCHED` the sequencer performs the step its position names. -/
theorem fetchSequencer_of_running {s : State} {ss : Session} (h : Running s ss) {i : Instr}
    (hi : decodePosition ss.pins.din ss.k = some i) : fetchSequencer s = .perform i s := by
  simp [fetchSequencer, h.1, h.2, hi]

/-- A quiet step of a running session. -/
theorem step_of_running {s : State} {ss : Session} (hq : Quiet s) (h : Running s ss) {i : Instr}
    (hi : decodePosition ss.pins.din ss.k = some i) : step s = exec i s := by
  simp [step, fetch_of_quiet hq, fetchSequencer_of_running h hi]

/-- A step of phase `VERIFY` with no host command due. -/
theorem step_of_verify_nothingDue {s : State} (hd : NothingDue s) (h : s.phase = .verify) :
    step s = verifyPhase { s with hostIn := oneStepNearer s.hostIn } := by
  simp [step, fetch_of_nothingDue hd, fetchSequencer, h]

/-- A quiet step of phase `VERIFY`. -/
theorem step_of_verify {s : State} (hq : Quiet s) (h : s.phase = .verify) : step s = verifyPhase s := by
  simp [step, fetch_of_quiet hq, fetchSequencer, h]

end Sys2Proof.Machine
end

