-- ==== Sys2Proof/Laws/PerInstr.lean ====
section
/-!
SUPPORT. Per-instruction laws: the encoded word of every operation carries the operation code of its row of
spec/opcode_table.json in bits 15 to 12 (R79, R80, R81), whatever its operands are.
-/

namespace Sys2Proof.Laws.OpcodeField

/-- The operation code of an operation's row (R79). -/
def tableCode : Instr → OpCode
  | .run _ _ _ _ _ _ => 0x8#4
  | .encode _ _ _ _ _ _ => 0x9#4
  | .verify _ _ => 0xA#4
  | .openPort => 0x1#4
  | .resetPort => 0x2#4
  | .setMode _ => 0x3#4
  | .write _ => 0x4#4
  | .read _ => 0x5#4
  | .closePort => 0x6#4
  | .wakeLo => 0x4#4
  | .wakeHi => 0x4#4
  | .passStart _ => 0x4#4
  | .present _ _ => 0x4#4
  | .rise _ _ => 0x4#4
  | .fall _ _ => 0x4#4
  | .sample _ _ => 0x5#4
  | .latchHi1 _ => 0x4#4
  | .latchLo _ => 0x4#4
  | .latchHi2 _ => 0x4#4

/-- Bits 15 to 12 of the word of `i` are its row's operation code. -/
def Statement (i : Instr) : Prop := ∀ (p : Pins) (x : Bits96), opField (encode p x i).word = tableCode i

theorem run (cs ck dout din : Pin) (pattern : Bits96) (log : LogTarget) :
    Statement (.run cs ck dout din pattern log) := by
  intro p x
  show opField (0x8#4 ++ packPins ⟨cs, ck, dout, din⟩ : OpWord) = 0x8#4
  exact (extract_high _ _ 0 _).trans (extract_all _)

theorem encode (cs ck dout : Pin) (csLevel ckLevel doutLevel : Bool) :
    Statement (.encode cs ck dout csLevel ckLevel doutLevel) := by
  intro p x
  show opField (0x9#4 ++ BitVec.ofBool doutLevel ++ BitVec.ofBool ckLevel ++ BitVec.ofBool csLevel
    ++ dout ++ ck ++ cs : OpWord) = 0x9#4
  exact (extract_high _ _ 9 _).trans ((extract_high _ _ 6 _).trans ((extract_high _ _ 3 _).trans
    ((extract_high _ _ 2 _).trans ((extract_high _ _ 1 _).trans ((extract_high _ _ 0 _).trans (extract_all _))))))

theorem verify (written read : Bits96) : Statement (.verify written read) := fun _ _ =>
  show opField 0xA000#16 = 0xA#4 by decide
theorem openPort : Statement .openPort := fun _ _ => opField_ptWord _ _
theorem resetPort : Statement .resetPort := fun _ _ => opField_ptWord _ _
theorem setMode (mask : Byte) : Statement (.setMode mask) := fun _ _ => opField_ptWord _ _
theorem write (rb : Byte) : Statement (.write rb) := fun _ _ => opField_ptWord _ _
theorem read (lv : Byte) : Statement (.read lv) := fun _ _ => opField_ptWord _ _
theorem closePort : Statement .closePort := fun _ _ => opField_ptWord _ _
theorem wakeLo : Statement .wakeLo := fun _ _ => opField_ptWord _ _
theorem wakeHi : Statement .wakeHi := fun _ _ => opField_ptWord _ _
theorem passStart (m : Fin 2) : Statement (.passStart m) := fun _ _ => opField_ptWord _ _
theorem present (m : Fin 2) (i : Fin 96) : Statement (.present m i) := fun _ _ => opField_ptWord _ _
theorem rise (m : Fin 2) (i : Fin 96) : Statement (.rise m i) := fun _ _ => opField_ptWord _ _
theorem fall (m : Fin 2) (i : Fin 96) : Statement (.fall m i) := fun _ _ => opField_ptWord _ _
theorem sample (m : Fin 2) (i : Fin 96) : Statement (.sample m i) := fun _ _ => opField_ptWord _ _
theorem latchHi1 (m : Fin 2) : Statement (.latchHi1 m) := fun _ _ => opField_ptWord _ _
theorem latchLo (m : Fin 2) : Statement (.latchLo m) := fun _ _ => opField_ptWord _ _
theorem latchHi2 (m : Fin 2) : Statement (.latchHi2 m) := fun _ _ => opField_ptWord _ _

end Sys2Proof.Laws.OpcodeField
end

