-- ==== Sys2Proof/Tests/Slice0.lean ====
section
/-!
SUPPORT. The model's own tests. Expected results are those of spec/95_test_vectors.md, or are worked out by hand from
the rule named. The last part shows, for each statement with hypotheses, a state and operands that meet them.
-/

namespace Sys2Proof.Tests

open Sys2Proof.Machine

/-! ### Small states -/

/-- Pins A of spec/95_test_vectors.md. -/
abbrev pinsA : Pins := ⟨2, 3, 1, 0⟩

/-- `0^64 1^32`. -/
abbrev patternA : Bits96 := 0xFFFFFFFF0000000000000000#96

/-- An answer whose status is ok, with levels `lv`. -/
abbrev okAnswer (lv : Byte) : PortAnswer :=
  { handle := 7, status := { code := 0, ok := true }, bytesWritten := 1, levels := lv, applied := false,
    port := State.reset.port }

/-- An answer whose status is not ok, with levels `lv`. -/
abbrev failAnswer (lv : Byte) : PortAnswer :=
  { handle := 9, status := { code := 4, ok := false }, bytesWritten := 1, levels := lv, applied := false,
    port := State.reset.port }

/-- A session of pins A and pattern A at position `k`. -/
abbrev sessionAt (k : Nat) : Session :=
  { pins := pinsA, pattern := patternA, capture := 0, handle := if k = 0 then none else some 7,
    lastStatus := if k = 0 then none else some { code := 0, ok := true }, matched := none, log := 5, k := k }

/-- A machine executing the schedule at position `k`, with the answers `plan` to come. -/
abbrev schedAt (k : Nat) (plan : List (Option PortAnswer)) : State :=
  { State.reset with phase := .sched, session := some (sessionAt k), portPlan := plan }

/-- A machine in phase `VERIFY` with MATCH as given. -/
abbrev verifyAt (matched : Option Bool) : State :=
  { State.reset with phase := .verify, session := some { sessionAt 781 with matched := matched } }

/-- A machine to which the host issues a word now. -/
abbrev hosting (s : State) (w : OpWord) : State :=
  { s with hostIn := [{ wait := 0, word := w, operand0 := patternA, operand1 := 1, log := 5 }] }

/-- What a test looks at of the state after an outcome; `none` for a stop. -/
def after {α : Type} (o : Result) (f : State → α) : Option α :=
  match o with
  | .next t => some (f t)
  | .fault _ => none
  | .refused _ => none

/-- A field of the session after an outcome. -/
def afterSession {α : Type} (o : Result) (f : Session → α) : Option α :=
  match o with
  | .next t => t.session.map f
  | .fault _ => none
  | .refused _ => none

/-- The PT word recorded last after an outcome. -/
def lastWord (o : Result) : Option OpWord := (after o fun t => t.trace.getLast?.map (·.word)).join

/-! ### Well-formedness: what each check refuses (R24, R84) -/

theorem test_run_cs_ck_collide : (Instr.run 2 2 1 0 0 0).wellFormed = false := by decide
theorem test_run_cs_dout_collide : (Instr.run 1 3 1 0 0 0).wellFormed = false := by decide
theorem test_run_cs_din_collide : (Instr.run 2 3 1 2 0 0).wellFormed = false := by decide
theorem test_run_ck_dout_collide : (Instr.run 2 3 3 0 0 0).wellFormed = false := by decide
theorem test_run_ck_din_collide : (Instr.run 2 3 1 3 0 0).wellFormed = false := by decide
theorem test_run_dout_din_collide : (Instr.run 2 3 0 0 0 0).wellFormed = false := by decide
theorem test_encode_pins_collide : (Instr.encode 1 1 2 true false false).wellFormed = false := by decide
theorem test_encode_cs_dout_collide : (Instr.encode 1 2 1 true false false).wellFormed = false := by decide
theorem test_encode_ck_dout_collide : (Instr.encode 2 1 1 true false false).wellFormed = false := by decide
theorem test_run_pins_A_legal : (Instr.run 2 3 1 0 0 0).wellFormed = true := by decide

/-! ### Decoding: words written out bit by bit (R80, R81, spec/95_test_vectors.md 2.3, 2.5) -/

theorem test_decode_run :
    decodeHost 0b1000111010001000#16 patternA 0 5 = .ok (.run 0 1 2 7 patternA 5) := by rfl
theorem test_decode_encode :
    decodeHost 0b1001101001011010#16 0 0 0 = .ok (.encode 2 3 1 true false true) := by rfl
theorem test_decode_verify :
    decodeHost 0b1010000000000000#16 patternA 1 0 = .ok (.verify patternA 1) := by rfl
theorem test_decode_verify_bits : decodeHost 0b1010000000000001#16 0 0 0 = .error .verifyBitsSet := by rfl
theorem test_decode_reserved : decodeHost 0b1011000000000000#16 0 0 0 = .error .reservedCode := by rfl
theorem test_decode_open : decodePort 0b0001000000000000#16 = .ok .openPort := by rfl
theorem test_decode_reset : decodePort 0b0010000000000000#16 = .ok .resetPort := by rfl
theorem test_decode_setmode : decodePort 0b0011000011111110#16 = .ok (.setMode 0xFE#8) := by rfl
theorem test_decode_write : decodePort 0b0100000000000110#16 = .ok (.write 0x06#8) := by rfl
theorem test_decode_read : decodePort 0b0101000000000001#16 = .ok (.read 0x01#8) := by rfl
theorem test_decode_close : decodePort 0b0110000000000000#16 = .ok .closePort := by rfl
theorem test_decode_record_bits : decodePort 0b0100000100000000#16 = .error .recordBitsSet := by rfl
theorem test_decode_record_data : decodePort 0b0001000000000001#16 = .error .recordDataSet := by rfl
theorem test_decode_record_code : decodePort 0b0111000000000000#16 = .error .notPortCode := by rfl

/-! The schedule steps share the words of WRITE and READ; their positions tell them apart (2.5). -/

theorem test_decode_wakeLo : decodeRecordAt pinsA patternA 3 0b0100000000000000#16 = .ok .wakeLo := by rfl
theorem test_decode_wakeHi : decodeRecordAt pinsA patternA 4 0b0100000000000100#16 = .ok .wakeHi := by rfl
theorem test_decode_passStart : decodeRecordAt pinsA patternA 393 0b0100000000000000#16 = .ok (.passStart 1) := by rfl
theorem test_decode_present : decodeRecordAt pinsA patternA 262 0b0100000000000010#16 = .ok (.present 0 64) := by rfl
theorem test_decode_rise : decodeRecordAt pinsA patternA 263 0b0100000000001010#16 = .ok (.rise 0 64) := by rfl
theorem test_decode_fall : decodeRecordAt pinsA patternA 388 0b0100000000000010#16 = .ok (.fall 0 95) := by rfl
theorem test_decode_sample : decodeRecordAt pinsA patternA 397 0b0101000000000001#16 = .ok (.sample 1 0) := by rfl
theorem test_decode_latchHi1 : decodeRecordAt pinsA patternA 390 0b0100000000000110#16 = .ok (.latchHi1 0) := by rfl
theorem test_decode_latchLo : decodeRecordAt pinsA patternA 779 0b0100000000000010#16 = .ok (.latchLo 1) := by rfl
theorem test_decode_latchHi2 : decodeRecordAt pinsA patternA 780 0b0100000000000110#16 = .ok (.latchHi2 1) := by rfl
/-- R171: a RISE byte at PRESENT's position is no record of the session. -/
theorem test_decode_swapped_steps : decodeRecordAt pinsA patternA 262 0x400A#16 = .error .notThisStep := by rfl
theorem test_table_word_run : decodeTableWord 16 0x805A = some (.run 2 3 1 0 0 0) := by rfl
theorem test_table_word_reserved : decodeTableWord 16 0x7000 = none := by rfl

/-! ### Operand forms (2.1, 2.2, R88) -/

theorem test_enc_pins_7_0_4 :
    encodeByte 7 0 4 true false true = 0x90#8 ∧ encodeByte 7 0 4 false true true = 0x11#8 := by decide
theorem test_mask : ioMask 0 = 0xFE#8 ∧ ioMask 4 = 0xEF#8 ∧ ioMask 7 = 0x7F#8 := by decide
theorem test_listing_setmode : listingLine (.setMode 0xFE#8) = some "SETMODE 0xFE, ASYNC_BITBANG" := by rfl
theorem test_listing_encode :
    listingLine (.encode 2 3 1 true false true) = some "ENCODE cs=1, ck=0, dout=1 ; pins cs=2, ck=3, dout=1" := by rfl

/-! ### One step of each operation -/

/-- 2.3: RUN is accepted in phase IDLE, and its pattern is taken element for element (R52). -/
theorem test_run_accepted :
    afterSession (step (hosting State.reset 0x805A#16)) (fun ss => (ss.pins, ss.pattern, ss.k, ss.log)) =
      some (pinsA, patternA, 0, 5) := by decide
/-- 2.8: Busy is checked before PinConfigInvalid. -/
theorem test_run_busy :
    after (step (hosting (schedAt 9 []) 0x8492#16)) (·.replies) = some [.refused .busy] := by decide
/-- 2.3: 0x9A5A gives 0x06. -/
theorem test_encode_result :
    after (step (hosting State.reset 0x9A5A#16)) (·.replies) = some [.byte 0x06#8] := by decide
/-- 2.3: 0x9289 is refused. -/
theorem test_encode_refused :
    after (step (hosting State.reset 0x9289#16)) (·.replies) = some [.refused .pinConfigInvalid] := by decide
/-- 1.3: `verify(0^96, 0^47 1 0^48)` is false. -/
theorem test_verify_flip_47 :
    after (exec (.verify 0 (1#96 <<< 47)) State.reset) (·.replies) = some [.verdict false] := by decide
/-- R182: the trace event. -/
theorem test_verify_trace :
    after (exec (.verify 1 1) State.reset) (·.diag) = some [{ log := none, event := .trace 1 1 true }] := by decide

/-- 2.4: a failed OPEN keeps the handle it returned. -/
theorem test_open_failed_handle :
    afterSession (step (schedAt 0 [some (failAnswer 0)])) (fun ss => (ss.handle, ss.k)) = some (some 9, 1) := by decide
theorem test_open_failed_event :
    after (step (schedAt 0 [some (failAnswer 0)])) (·.diag) =
      some [{ log := some 5, event := .error .deviceOpenFailed 0 { code := 4, ok := false } }] := by decide
theorem test_reset_failed_event :
    after (step (schedAt 1 [some (failAnswer 0)])) (·.diag) =
      some [{ log := some 5, event := .error .deviceResetFailed 1 { code := 4, ok := false } }] := by decide
theorem test_setmode_word : lastWord (step (schedAt 2 [some (okAnswer 0)])) = some 0x30FE#16 := by decide
theorem test_setmode_port :
    after (step (schedAt 2 [some (okAnswer 0)])) (fun t => (t.port.mask, t.port.mode)) =
      some (0xFE#8, some .asyncBitbang) := by decide
/-- 2.4: `bytes_written = 0` with an ok status raises nothing. -/
theorem test_write_zero_bytes :
    after (exec (.write 0x04#8) (schedAt 4 [some { okAnswer 0 with bytesWritten := 0 }])) (fun t => (t.diag, t.port.outLatch)) =
      some ([], 0x04#8) := by decide
/-- R119: a failed WRITE may have reached the pins. -/
theorem test_write_failed_applied :
    after (exec (.write 0x04#8) (schedAt 7 [some { failAnswer 0 with applied := true }])) (fun t => (t.diag.length, t.port.outLatch)) =
      some (1, 0x04#8) := by decide
theorem test_read_word : lastWord (exec (.read 0) (schedAt 9 [some (okAnswer 0x03#8)])) = some 0x5003#16 := by decide
theorem test_read_failed_word : lastWord (exec (.read 0) (schedAt 9 [some (failAnswer 0xFF#8)])) = some 0x5000#16 := by decide
theorem test_close_phase :
    after (step (schedAt 781 [some (failAnswer 0)])) (fun t => (t.phase, t.diag.length)) = some (.verify, 1) := by decide

/-! 2.5: the words of the schedule steps. -/

theorem test_wakeLo_word : lastWord (step (schedAt 3 [some (okAnswer 0)])) = some 0x4000#16 := by decide
theorem test_wakeHi_word : lastWord (step (schedAt 4 [some (okAnswer 0)])) = some 0x4004#16 := by decide
theorem test_passStart_word : lastWord (step (schedAt 393 [some (okAnswer 0)])) = some 0x4000#16 := by decide
theorem test_present_word : lastWord (step (schedAt 262 [some (okAnswer 0)])) = some 0x4002#16 := by decide
theorem test_rise_word : lastWord (step (schedAt 7 [some (okAnswer 0)])) = some 0x4008#16 := by decide
theorem test_fall_word : lastWord (step (schedAt 388 [some (okAnswer 0)])) = some 0x4002#16 := by decide
/-- 2.4: READ at k = 9 answered 0x01 captures 1. -/
theorem test_sample_captures :
    afterSession (step (schedAt 9 [some (okAnswer 0x01#8)])) (fun ss => (ss.capture, ss.k)) = some (1, 10) := by decide
/-- 2.4: a failed READ answered 0xFF leaves `C[0]` as it was. -/
theorem test_sample_failed :
    afterSession (step (schedAt 9 [some (failAnswer 0xFF#8)])) (fun ss => (ss.capture, ss.k)) = some (0, 10) := by decide
theorem test_latchHi1_word : lastWord (step (schedAt 778 [some (okAnswer 0)])) = some 0x4006#16 := by decide
theorem test_latchLo_word : lastWord (step (schedAt 391 [some (okAnswer 0)])) = some 0x4002#16 := by decide
theorem test_latchHi2_word : lastWord (step (schedAt 780 [some (okAnswer 0)])) = some 0x4006#16 := by decide

/-- R142: the VERIFY phase, its two steps. -/
theorem test_verify_phase_match : afterSession (step (verifyAt none)) (·.matched) = some (some false) := by decide
theorem test_verify_phase_return :
    after (step (verifyAt (some false))) (fun t => (t.phase, t.session, t.replies)) =
      some (.idle, none, [.run 0 false]) := by decide

/-- Every operation with a word of its own runs as the first one after reset. -/
theorem test_first_after_reset :
    ∀ w ∈ [0x805A, 0x9A5A, 0xA000, 0x1000, 0x2000, 0x30FE, 0x40FF, 0x5003, 0x6000],
      (after (step (State.reset.withFetchWord 16 w)) fun _ => ()) = some () := by
  intro w hw
  fin_cases hw <;> rfl

/-- An idle machine counts down to the host's next command, and then serves it (assumption 7). -/
theorem test_idle_counts_down :
    after (step { State.reset with hostIn := [{ wait := 1, word := 0xA000#16, operand0 := 1, operand1 := 1, log := 0 }] })
      (fun t => after (step t) (·.replies)) = some (some [.verdict true]) := by decide

/-! ### States that meet the hypotheses of the statements -/

theorem witness_encode_pins : distinct3 2 3 1 = true ∧ distinct3 5 6 7 = true := by decide
theorem witness_legal_pins : pinsA.legal = true ∧ (⟨7, 0, 4, 1⟩ : Pins).legal = true := by decide
theorem witness_colliding_pins : State.reset.phase = .idle ∧ (2 : Pin) = 2 := by decide
theorem witness_accepted_run :
    State.reset.phase = .idle ∧ (2 : Pin) ≠ 3 ∧ (2 : Pin) ≠ 1 ∧ (2 : Pin) ≠ 0 ∧ (3 : Pin) ≠ 1 ∧ (3 : Pin) ≠ 0 ∧
      (1 : Pin) ≠ 0 := by decide
theorem witness_session_exists : (schedAt 0 []).phase ≠ .idle ∧ (verifyAt none).phase ≠ .idle := by decide
/-- A running session with a planned answer: for the completion of every port operation and schedule step. -/
theorem witness_running_planned :
    Running (schedAt 9 [some (okAnswer 1)]) (sessionAt 9) ∧
      Answers (schedAt 9 [some (okAnswer 1)]) (okAnswer 1) (schedAt 9 []) :=
  ⟨⟨rfl, rfl⟩, .inl ⟨[], rfl, rfl⟩⟩
/-- The same with SETMODE's mask in the port. -/
theorem witness_mask_set :
    Running { schedAt 4 [some (okAnswer 0)] with port := { State.reset.port with mask := 0xFE#8 } } (sessionAt 4) ∧
      Answers { schedAt 4 [some (okAnswer 0)] with port := { State.reset.port with mask := 0xFE#8 } } (okAnswer 0)
        { schedAt 4 [] with port := { State.reset.port with mask := 0xFE#8 } } ∧
      (sessionAt 4).pins.legal = true ∧ (0xFE#8 : Byte) = ioMask (sessionAt 4).pins.din ∧
      (okAnswer 0).status.isOk = true :=
  ⟨⟨rfl, rfl⟩, .inl ⟨[], rfl, rfl⟩, by decide, by decide, rfl⟩
/-- The same with a status that is not ok. -/
theorem witness_running_failing :
    Running (schedAt 781 [some (failAnswer 1)]) (sessionAt 781) ∧
      Answers (schedAt 781 [some (failAnswer 1)]) (failAnswer 1) (schedAt 781 []) :=
  ⟨⟨rfl, rfl⟩, .inl ⟨[], rfl, rfl⟩⟩
/-- The same with a free answer. -/
theorem witness_running_free :
    Running (schedAt 0 []) (sessionAt 0) ∧
      Answers (schedAt 0 []) (Config.portAnswer 0) { schedAt 0 [] with answersTaken := 1 } :=
  ⟨⟨rfl, rfl⟩, .inr ⟨rfl, rfl, rfl⟩⟩
theorem witness_silent_port : Running (schedAt 5 [none]) (sessionAt 5) ∧ (schedAt 5 [none]).portPlan = none :: [] :=
  ⟨⟨rfl, rfl⟩, rfl⟩
theorem witness_no_session : ¬ IsHostOp .wakeLo ∧ State.reset.session = none ∧ (verifyAt none).phase ≠ .sched :=
  ⟨fun h => h, rfl, by decide⟩
theorem witness_word_operation : IsHostOp (.verify 0 1) ∧ Instr.openPort = .openPort := ⟨trivial, rfl⟩
theorem witness_position :
    position (.sample 1 95) = some 777 ∧ position (.setMode (ioMask 0)) = some 2 ∧ position (.passStart 0) = some 5 := by
  decide
/-- Port words on either side of each check: code, bits 11 to 8, data byte. -/
theorem witness_refused_port_words :
    (opField 0x0FFF#16).toNat < 1 ∧ 6 < (opField 0x7000#16).toNat ∧
      (opField 0x4100#16 = 0x4#4 ∧ zeroField 0x4100#16 ≠ 0) ∧ (opField 0x1F00#16 = 0x1#4 ∧ zeroField 0x1F00#16 ≠ 0) ∧
      (opField 0x6001#16 = 0x6#4 ∧ zeroField 0x6001#16 = 0 ∧ dataField 0x6001#16 ≠ 0) ∧
      (opField 0x1000#16 = 0x1#4 ∧ zeroField 0x1000#16 = 0 ∧ dataField 0x1000#16 = 0) ∧
      (opField 0x30FF#16 = 0x3#4 ∧ zeroField 0x30FF#16 = 0) := by decide
/-- Words that decode, for encoding them back. -/
theorem witness_decoding_words :
    decodePort 0x6000#16 = .ok .closePort ∧ decodeHost 0x8FFF#16 1 2 3 = .ok (.run 7 7 7 7 1 3) ∧
      decodeHost 0xA000#16 1 2 3 = .ok (.verify 1 2) := ⟨rfl, rfl, rfl⟩
/-- A RISE byte at PRESENT's position, a port word past the last position, and a word that is no port operation's. -/
theorem witness_other_words :
    decodePort 0x400A#16 = .ok (.write 0x0A#8) ∧ decodePosition pinsA.din 262 = some (.present 0 64) ∧
      0x400A#16 ≠ (encode pinsA patternA (.present 0 64)).word ∧ opField 0x400A#16 ≠ 0x5#4 ∧ 782 ≤ 782 ∧
      decodePort 0x4100#16 = .error .recordBitsSet := ⟨rfl, rfl, by decide, by decide, Nat.le_refl _, rfl⟩
/-- A write of the byte that the latch holds already, and a write by a schedule step. -/
theorem witness_written_byte :
    writtenByte (sessionAt 9) (.write State.reset.port.outLatch) = some State.reset.port.outLatch ∧
      writtenByte (sessionAt 9) (.latchHi2 1) = some 0x06#8 := by decide
/-- A command that is still to come, in each phase. -/
theorem witness_waiting_command :
    ∀ s ∈ [State.reset, schedAt 781 [some (failAnswer 0)], verifyAt none, verifyAt (some true)],
      NothingDue { s with hostIn := [{ wait := 1, word := 0x805A#16, operand0 := 0, operand1 := 0, log := 0 }] } := by
  intro s hs
  constructor
  · fin_cases hs <;> rfl
  · rintro r rest h
    cases h
    decide
/-- Due host commands: reserved codes at the ends of their ranges, a VERIFY bit, RUN while busy, RUN with a collision. -/
theorem witness_host_commands :
    opField 0x0FFF#16 = 0x0#4 ∧ opField 0x7000#16 = 0x7#4 ∧ 0xB ≤ (opField 0xB000#16).toNat ∧
      0xB ≤ (opField 0xF000#16).toNat ∧ (opField 0xA800#16 = 0xA#4 ∧ argField 0xA800#16 ≠ 0) ∧
      opField 0x8052#16 = 0x8#4 ∧ (unpackPins (argField 0x8052#16)).legal = false ∧
      (hosting State.reset 0x8052#16).portWord = none ∧ (hosting (schedAt 9 []) 0x805A#16).phase ≠ .idle := by decide
theorem witness_port_code_on_host :
    1 ≤ (opField 0x1000#16).toNat ∧ (opField 0x6000#16).toNat ≤ 6 ∧ (hosting State.reset 0x1000#16).portWord = none := by
  decide
theorem witness_offset_chain : ∀ i : Fin 96, elem 1#96 i = elem (1#96 <<< 95) (i - 1) := by decide
theorem witness_elements_differ : elem 0 0 ≠ elem 1#96 0 ∧ elem 0 95 ≠ elem (1#96 <<< 95) 95 := by decide
theorem witness_verify_phase : Quiet (verifyAt none) ∧ (verifyAt none).phase = .verify := ⟨⟨rfl, rfl⟩, rfl⟩
theorem witness_match_known : Quiet (verifyAt (some true)) ∧ (verifyAt (some true)).phase = .verify := ⟨⟨rfl, rfl⟩, rfl⟩
theorem witness_idle_quiet : Quiet State.reset ∧ State.reset.phase = .idle := ⟨⟨rfl, rfl⟩, rfl⟩
/-- The step at a position, with no host command and with one that is not due; a word of its own. -/
theorem witness_step_decodes :
    Quiet (schedAt 781 []) ∧ decodePosition 0 781 = some .closePort ∧ decodePosition 0 0 = some .openPort ∧
      (∀ r ∈ (hosting (schedAt 0 []) 0xA000#16).hostIn, r.wait = 0) ∧ decodePort 0x40FF#16 = .ok (.write 0xFF#8) :=
  ⟨⟨rfl, rfl⟩, rfl, rfl, by decide, rfl⟩
/-- States of the invariant whose next step completes: at the first, an inner and the last position, in phase VERIFY,
and with a host command that is due and one that is not. -/
theorem witness_well_formed_steps :
    ∀ s ∈ [schedAt 0 [some (okAnswer 0)], schedAt 780 [some (okAnswer 0)], schedAt 781 [some (failAnswer 0)],
        verifyAt none, verifyAt (some true), State.reset, hosting (schedAt 9 []) 0x805A#16,
        { schedAt 9 [some (okAnswer 1)] with hostIn := [{ wait := 1, word := 0, operand0 := 0, operand1 := 0, log := 0 }] }],
      s.wf = true ∧ (after (step s) fun _ => ()) = some () := by decide
/-- A step that changes an element of the Captured Array. -/
theorem witness_capture_changes :
    (schedAt 397 [some (okAnswer 1)]).wf = true ∧
      (afterSession (step (schedAt 397 [some (okAnswer 1)])) fun ss => elem ss.capture 0) = some true ∧
      elem (sessionAt 397).capture 0 = false := by decide
theorem witness_consecutive_writes :
    (referenceListing pinsA patternA)[392]? = some (.write 0x06#8) ∧
      (referenceListing pinsA patternA)[393]? = some (.write 0x00#8) ∧
      (referenceListing pinsA patternA)[3]? = some (.write 0x00#8) ∧
      (referenceListing pinsA patternA)[4]? = some (.write 0x04#8) := by decide
/-- An idle machine whose port will answer a whole RUN, ok or not. -/
theorem witness_ready_to_run (a : PortAnswer) :
    ReadyToRun { State.reset with portPlan := (List.replicate 782 a).map some } (List.replicate 782 a) [] :=
  ⟨rfl, ⟨rfl, rfl⟩, List.length_replicate, (List.append_nil _).symm⟩
theorem witness_failing_device : ∀ a ∈ List.replicate 782 (failAnswer 0xFF#8), a.status.isOk = false := by
  intro a ha
  rw [List.eq_of_mem_replicate ha]

end Sys2Proof.Tests
end

/-! ## The state: its invariant, and what every step keeps (spec/10_state.md)

A step serves a host command that is due, or is the sequencer's own, or runs a word of its own. `HostMove`,
`SequencerMove` and `PortMove` say once what each of them can do; the invariants are derived from these. -/

namespace Sys2Proof.Machine

/-! ### Positions of the schedule (R160, R161) -/

theorem bitStep_position (m : Fin 2) (i : Fin 96) {n : Nat} (hn : n < 4) :
    position (bitStep m i n) = some (passBase m + 1 + 4 * i.val + n) := by
  obtain rfl | rfl | rfl | rfl : n = 0 ∨ n = 1 ∨ n = 2 ∨ n = 3 := by omega
  all_goals simp [bitStep, position] <;> omega

theorem passStep_position (m : Fin 2) {r : Nat} (hr : r < 388) : position (passStep m r) = some (passBase m + r) := by
  unfold passStep
  split_ifs with h0 h384 h385 h386
  · simp [position, h0]
  · have hi : (Fin.ofNat 96 ((r - 1) / 4)).val = (r - 1) / 4 := Nat.mod_eq_of_lt (by omega)
    rw [bitStep_position _ _ (Nat.mod_lt _ (by omega)), hi, Option.some.injEq]
    omega
  · simp [position, h385]
  · simp [position, h386]
  · simp only [position, Option.some.injEq]
    omega

/-- The step that R161 names at position `k` is one that R160 places there. -/
theorem position_of_decodePosition {din : Pin} {k : Nat} {i : Instr} (h : decodePosition din k = some i) :
    position i = some k := by
  unfold decodePosition at h
  split_ifs at h with h0 h1 h2 h3 h4 hclose hpass
  rotate_right
  · have hm : (Fin.ofNat 2 ((k - 5) / 388)).val = (k - 5) / 388 := Nat.mod_eq_of_lt (by omega)
    obtain rfl := Option.some.inj h
    rw [passStep_position _ (Nat.mod_lt _ (by omega)), passBase, hm, Option.some.injEq]
    omega
  all_goals
    obtain rfl := Option.some.inj h
    simp [position, *]

theorem exists_decodePosition (din : Pin) {k : Nat} (hk : k < 782) : ∃ i, decodePosition din k = some i := by
  unfold decodePosition
  split_ifs
  case neg => omega
  all_goals exact ⟨_, rfl⟩

/-- OPEN stands at position 0 and nowhere else. -/
theorem eq_openPort_iff_of_decodePosition {din : Pin} {k : Nat} {i : Instr} (h : decodePosition din k = some i) :
    i = .openPort ↔ k = 0 := by
  constructor
  · rintro rfl
    exact (Option.some.inj (position_of_decodePosition h)).symm
  · rintro rfl
    exact (Option.some.inj h).symm

/-- CLOSE stands at position 781 and nowhere else. -/
theorem eq_closePort_iff_of_decodePosition {din : Pin} {k : Nat} {i : Instr} (h : decodePosition din k = some i) :
    i = .closePort ↔ k = 781 := by
  constructor
  · rintro rfl
    exact (Option.some.inj (position_of_decodePosition h)).symm
  · rintro rfl
    exact (Option.some.inj h).symm

/-- A host operation stands at no position. -/
theorem position_eq_none_of_isHostOp {i : Instr} (h : IsHostOp i) : position i = none := by
  cases i with
  | run | encode | verify => rfl
  | _ => exact h.elim

theorem not_isHostOp_of_decodePosition {din : Pin} {k : Nat} {i : Instr} (h : decodePosition din k = some i) :
    ¬ IsHostOp i := by
  intro hi
  simpa [position_eq_none_of_isHostOp hi] using position_of_decodePosition h

/-! ### Port operations and schedule steps: one transaction each -/

/-- The port operation that an operation issues in session `ss` (R150 to R159). Host operations issue none, and no
lemma is about theirs. -/
def issuedOp (i : Instr) (ss : Session) : PortOp :=
  match i with
  | .openPort => .openPort
  | .resetPort => .resetPort
  | .setMode mask => .setMode mask .asyncBitbang
  | .closePort => .closePort
  | _ =>
    match writtenByte ss i with
    | some b => .write b
    | none => .read

/-- The session's registers once operation `i` is answered `a`. -/
def nextSession (i : Instr) (ss : Session) (a : PortAnswer) : Session :=
  match i with
  | .openPort => ss.advanceOpen a
  | .closePort => ss.closed a
  | .sample _ j => ss.advanceSample j a
  | _ => ss.advance a

/-- The phase once operation `i` is answered (R32). -/
def nextPhase : Instr → Phase
  | .closePort => .verify
  | _ => .sched

/-- Every port operation and schedule step is one transaction with the port. -/
theorem exec_eq_transact {i : Instr} (hi : ¬ IsHostOp i) (s : State) :
    exec i s = transact (issuedOp i) (nextSession i) (nextPhase i) s := by
  cases i with
  | run | encode | verify => exact (hi trivial).elim
  | _ => rfl

@[simp] theorem nextSession_pins (i : Instr) (ss : Session) (a : PortAnswer) : (nextSession i ss a).pins = ss.pins := by
  unfold nextSession; split <;> simp
@[simp] theorem nextSession_pattern (i : Instr) (ss : Session) (a : PortAnswer) :
    (nextSession i ss a).pattern = ss.pattern := by
  unfold nextSession; split <;> simp
@[simp] theorem nextSession_log (i : Instr) (ss : Session) (a : PortAnswer) : (nextSession i ss a).log = ss.log := by
  unfold nextSession; split <;> simp
@[simp] theorem nextSession_matched (i : Instr) (ss : Session) (a : PortAnswer) :
    (nextSession i ss a).matched = ss.matched := by
  unfold nextSession; split <;> simp
@[simp] theorem nextSession_lastStatus (i : Instr) (ss : Session) (a : PortAnswer) :
    (nextSession i ss a).lastStatus = some a.status := by
  unfold nextSession; split <;> simp
@[simp] theorem nextSession_k_closePort (ss : Session) (a : PortAnswer) : (nextSession .closePort ss a).k = ss.k := rfl
@[simp] theorem nextSession_handle_openPort (ss : Session) (a : PortAnswer) :
    (nextSession .openPort ss a).handle = some a.handle := rfl
@[simp] theorem nextPhase_closePort : nextPhase .closePort = .verify := rfl

theorem nextSession_k_of_ne {i : Instr} (hi : i ≠ .closePort) (ss : Session) (a : PortAnswer) :
    (nextSession i ss a).k = ss.k + 1 := by
  unfold nextSession; split <;> simp_all

theorem nextSession_handle_of_ne {i : Instr} (hi : i ≠ .openPort) (ss : Session) (a : PortAnswer) :
    (nextSession i ss a).handle = ss.handle := by
  unfold nextSession; split <;> simp_all

theorem nextPhase_of_ne {i : Instr} (hi : i ≠ .closePort) : nextPhase i = .sched := by
  unfold nextPhase; split <;> simp_all

/-- Only an ok SAMPLE of an element changes it (R156). -/
theorem sample_of_nextSession_capture_ne {i : Instr} {ss : Session} {a : PortAnswer} {j : Fin 96}
    (h : elem (nextSession i ss a).capture j ≠ elem ss.capture j) :
    (∃ m, i = .sample m j) ∧ a.status.isOk = true := by
  cases i with
  | sample m n =>
    rw [show nextSession (.sample m n) ss a = ss.advanceSample n a from rfl, Session.advanceSample_capture] at h
    split at h
    · next hok =>
      rw [elem_setElem] at h
      have hj : j = n := by
        by_contra hne
        exact h (if_neg hne)
      exact ⟨⟨m, by rw [hj]⟩, hok⟩
    · exact absurd rfl h
  | _ => exact absurd rfl h

theorem recordOf_handle_of_ne {op : PortOp} (hop : op ≠ .openPort) (ss : Session) (a : PortAnswer) (n : Nat) :
    (recordOf op ss a n).handle = ss.handle := by
  cases op with
  | openPort => exact absurd rfl hop
  | _ => rfl

/-- A transaction outside phase `SCHED`, or without a session, is given no meaning. -/
theorem transact_of_not_running {s : State} (h : s.phase ≠ .sched ∨ s.session = none) (op : Session → PortOp)
    (next : Session → PortAnswer → Session) (phase' : Phase) : transact op next phase' s = .refused .noSession := by
  unfold transact
  split
  · next ss hp hs => simp [hp, hs] at h
  · rfl

/-! ### Host operations -/

theorem distinct4_iff (cs ck dout din : Pin) :
    distinct4 cs ck dout din = true ↔
      cs ≠ ck ∧ cs ≠ dout ∧ cs ≠ din ∧ ck ≠ dout ∧ ck ≠ din ∧ dout ≠ din := by
  simp [distinct4, and_assoc]

theorem exec_run_of_busy {s : State} (h : s.phase ≠ .idle) (cs ck dout din : Pin) (x : Bits96) (log : LogTarget) :
    exec (.run cs ck dout din x log) s = .next (s.refuse .busy) := by
  simp [exec, execRun, h]

theorem exec_run_of_collision {s : State} (h : s.phase = .idle) {cs ck dout din : Pin}
    (hd : distinct4 cs ck dout din = false) (x : Bits96) (log : LogTarget) :
    exec (.run cs ck dout din x log) s = .next (s.refuse .pinConfigInvalid) := by
  simp [exec, execRun, h, hd]

theorem exec_run_of_legal {s : State} (h : s.phase = .idle) {cs ck dout din : Pin}
    (hd : distinct4 cs ck dout din = true) (x : Bits96) (log : LogTarget) :
    exec (.run cs ck dout din x log) s = .next (s.beginSession (freshSession ⟨cs, ck, dout, din⟩ x log)) := by
  simp [exec, execRun, h, hd]

/-- ENCODE completes with one reply, which is its byte or a refusal of its pins. -/
theorem exec_encode (cs ck dout : Pin) (a b c : Bool) (s : State) :
    exec (.encode cs ck dout a b c) s =
      .next (s.reply (if distinct3 cs ck dout then .byte (encodeByte cs ck dout a b c)
        else .refused .pinConfigInvalid)) := by
  show execEncode cs ck dout a b c s = _
  unfold execEncode
  split <;> rfl

theorem exec_verify (w r : Bits96) (s : State) :
    exec (.verify w r) s = .next ((s.appendDiag [traceLine none w r]).reply (.verdict (verdict w r))) := rfl

/-- What serving a host command can do to the machine: a reply, with further diagnostic output or none, or the
session of an accepted RUN. -/
inductive HostMove (s : State) : State → Prop
  | reply (lines : List DiagLine) (r : Reply) : HostMove s ((s.appendDiag lines).reply r)
  | accept (pins : Pins) (x : Bits96) (log : LogTarget) (hidle : s.phase = .idle) (hlegal : pins.legal = true) :
      HostMove s (s.beginSession (freshSession pins x log))

theorem HostMove.refuse (s : State) (reason : HostRefusal) : HostMove s (s.refuse reason) := by
  simpa [State.appendDiag, State.refuse] using HostMove.reply (s := s) [] (.refused reason)

/-- Every host operation completes with a `HostMove`. -/
theorem hostMove_of_exec {i : Instr} (hi : IsHostOp i) {s t : State} (h : exec i s = .next t) : HostMove s t := by
  cases i with
  | run cs ck dout din x log =>
    by_cases hp : s.phase = .idle
    · cases hd : distinct4 cs ck dout din with
      | false =>
        rw [exec_run_of_collision hp hd] at h
        cases h
        exact .refuse s _
      | true =>
        rw [exec_run_of_legal hp hd] at h
        cases h
        exact .accept _ x log hp hd
    · rw [exec_run_of_busy hp] at h
      cases h
      exact .refuse s _
  | encode cs ck dout a b c =>
    rw [exec_encode] at h
    cases h
    simpa [State.appendDiag] using HostMove.reply (s := s) [] _
  | verify w r =>
    rw [exec_verify] at h
    cases h
    exact .reply _ _
  | _ => exact hi.elim

/-- While a session exists a host command leaves phase and session as they are (R212). -/
theorem HostMove.frame {s t : State} (h : HostMove s t) (hp : s.phase ≠ .idle) :
    t.phase = s.phase ∧ t.session = s.session := by
  cases h with
  | reply => exact ⟨rfl, rfl⟩
  | accept _ _ _ hidle => exact absurd hidle hp

/-! ### What a step can do -/

/-- Operation `i` is issued by the running session `ss` and answered `a`. -/
structure PortMove (i : Instr) (ss : Session) (a : PortAnswer) (s t : State) : Prop where
  running : Running s ss
  answered : ∃ s1, Answers s a s1 ∧ t = s1.answered (issuedOp i ss) ss a (nextSession i ss a) (nextPhase i)

theorem portMove_of_exec {i : Instr} (hi : ¬ IsHostOp i) {s t : State} (h : exec i s = .next t) :
    ∃ ss a, PortMove i ss a s t := by
  rw [exec_eq_transact hi] at h
  obtain ⟨ss, a, s1, hr, ha, ht⟩ := transact_next h
  exact ⟨ss, a, hr, s1, ha, ht⟩

section
variable {i : Instr} {ss : Session} {a : PortAnswer} {s t : State}

theorem PortMove.phase (h : PortMove i ss a s t) : t.phase = nextPhase i := by
  obtain ⟨-, s1, -, rfl⟩ := h
  rfl

theorem PortMove.session (h : PortMove i ss a s t) : t.session = some (nextSession i ss a) := by
  obtain ⟨-, s1, -, rfl⟩ := h
  rfl

theorem PortMove.portWord (h : PortMove i ss a s t) : t.portWord = s.portWord := by
  obtain ⟨-, s1, ha, rfl⟩ := h
  obtain ⟨-, -, -, -, -, -, -, hw, -⟩ := answers_frame ha
  exact hw

/-- A port operation appends its record, and its error event if it failed, and answers nothing to the host. -/
theorem PortMove.outputs (h : PortMove i ss a s t) :
    t.trace = s.trace ++ [recordOf (issuedOp i ss) ss a s.settleDue] ∧
      t.diag = s.diag ++ raised (issuedOp i ss) ss a ∧ t.replies = s.replies := by
  obtain ⟨-, s1, ha, rfl⟩ := h
  obtain ⟨-, -, -, htrace, hdiag, hreplies, -, -, hsettle⟩ := answers_frame ha
  simp [htrace, hdiag, hreplies, hsettle]

end

/-- The machine once the session `ss` of `t` was compared (R142). -/
def afterCompare (t : State) (ss : Session) : State :=
  { t.appendDiag [traceLine (some ss.log) ss.pattern ss.capture] with
    session := some { ss with matched := some (verdict ss.pattern ss.capture) } }

/-- What the sequencer's own step can do to the machine. -/
inductive SequencerMove (s : State) : State → Prop
  | stay (hidle : s.phase = .idle) : SequencerMove s s
  | operate {i : Instr} {ss : Session} {a : PortAnswer} {t : State}
      (hat : decodePosition ss.pins.din ss.k = some i) (hmove : PortMove i ss a s t) : SequencerMove s t
  | compare {ss : Session} (hphase : s.phase = .verify) (hs : s.session = some ss) (hmatched : ss.matched = none) :
      SequencerMove s (afterCompare s ss)
  | finish {ss : Session} {v : Bool} (hphase : s.phase = .verify) (hs : s.session = some ss)
      (hmatched : ss.matched = some v) : SequencerMove s (s.endSession ss.capture v)

theorem step_of_perform {s s' : State} {i : Instr} (h : fetch s = .perform i s') : step s = exec i s' := by
  simp [step, h]

theorem step_of_act {s : State} {o : Result} (h : fetch s = .act o) : step s = o := by
  simp [step, h]

/-- With no host command due a step is a `SequencerMove`. -/
theorem sequencerMove_of_step {s t : State} (hd : NothingDue s) (h : step s = .next t) :
    SequencerMove { s with hostIn := oneStepNearer s.hostIn } t := by
  have hf := fetch_of_nothingDue hd
  generalize { s with hostIn := oneStepNearer s.hostIn } = s0 at hf ⊢
  cases hp : s0.phase with
  | idle =>
    rw [step_of_act (o := .next s0) (by simp [hf, fetchSequencer, hp])] at h
    cases h
    exact .stay hp
  | sched =>
    cases hs : s0.session with
    | none =>
      rw [step_of_act (o := .refused .noSession) (by simp [hf, fetchSequencer, hp, hs])] at h
      cases h
    | some ss =>
      cases hi : decodePosition ss.pins.din ss.k with
      | none =>
        rw [step_of_act (o := .refused .offSchedule) (by simp [hf, fetchSequencer, hp, hs, hi])] at h
        cases h
      | some i =>
        rw [step_of_perform (hf.trans (fetchSequencer_of_running ⟨hp, hs⟩ hi))] at h
        obtain ⟨ss', a, hmove⟩ := portMove_of_exec (not_isHostOp_of_decodePosition hi) h
        obtain rfl : ss' = ss := Option.some.inj (hmove.running.2.symm.trans hs)
        exact .operate hi hmove
  | verify =>
    rw [step_of_act (o := verifyPhase s0) (by simp [hf, fetchSequencer, hp])] at h
    obtain ⟨ss, hs, ⟨hm, rfl⟩ | ⟨v, hm, rfl⟩⟩ := verifyPhase_next h
    · exact .compare hp hs hm
    · exact .finish hp hs hm

/-- The host decoder accepts host operations only (R79). -/
theorem isHostOp_of_decodeHost {w : OpWord} {x y : Bits96} {log : LogTarget} {i : Instr}
    (h : decodeHost w x y log = .ok i) : IsHostOp i := by
  unfold decodeHost at h
  split_ifs at h <;> cases h <;> trivial

/-- The port decoder accepts no host operation (R85). -/
theorem not_isHostOp_of_decodePort {w : OpWord} {i : Instr} (h : decodePort w = .ok i) : ¬ IsHostOp i := by
  unfold decodePort at h
  split_ifs at h <;> cases h <;> exact id

/-- A host command that is due is what a step serves. -/
theorem fetch_of_due {s : State} {r : HostRequest} {rest : List HostRequest} (hw : s.portWord = none)
    (hh : s.hostIn = r :: rest) (h0 : r.wait = 0) : fetch s = serveHost r { s with hostIn := rest } := by
  simp [fetch, fetchHost, hw, hh, h0]

/-- A step that serves a host command is a `HostMove`. -/
theorem hostMove_of_step {s t : State} {r : HostRequest} {rest : List HostRequest} (hw : s.portWord = none)
    (hh : s.hostIn = r :: rest) (h0 : r.wait = 0) (h : step s = .next t) : HostMove { s with hostIn := rest } t := by
  have hf := fetch_of_due hw hh h0
  unfold serveHost at hf
  split at hf
  · next i hi =>
    rw [step_of_perform hf] at h
    exact hostMove_of_exec (isHostOp_of_decodeHost hi) h
  · rw [step_of_act hf] at h
    cases h
  · rw [step_of_act hf] at h
    cases h
    exact .refuse _ _

/-- A step that runs a word of its own is a `PortMove`. -/
theorem portMove_of_step {s t : State} {w : OpWord} (hw : s.portWord = some w) (h : step s = .next t) :
    ∃ i ss a, PortMove i ss a { s with portWord := none } t := by
  have hf : fetch s = fetchRecord w { s with portWord := none } := by simp [fetch, hw]
  unfold fetchRecord at hf
  split at hf
  · next i hi =>
    rw [step_of_perform hf] at h
    exact ⟨i, portMove_of_exec (not_isHostOp_of_decodePort hi) h⟩
  · rw [step_of_act hf] at h
    cases h

/-- Where no word is to be run on its own, a host command is due or nothing is. -/
theorem due_or_nothingDue {s : State} (hw : s.portWord = none) :
    (∃ r rest, s.hostIn = r :: rest ∧ r.wait = 0) ∨ NothingDue s := by
  by_cases h : ∃ r rest, s.hostIn = r :: rest ∧ r.wait = 0
  · exact .inl h
  · refine .inr ⟨hw, fun r rest hr => Nat.pos_of_ne_zero fun h0 => h ⟨r, rest, hr, h0⟩⟩

/-- Everything a step can do where no word is to be run on its own. -/
theorem step_moves {s t : State} (hw : s.portWord = none) (h : step s = .next t) :
    (∃ rest, HostMove { s with hostIn := rest } t) ∨
      SequencerMove { s with hostIn := oneStepNearer s.hostIn } t := by
  obtain ⟨r, rest, hr, h0⟩ | hd := due_or_nothingDue hw
  · exact .inl ⟨rest, hostMove_of_step hw hr h0 h⟩
  · exact .inr (sequencerMove_of_step hd h)

/-! ### The invariant -/

theorem Session.wf_sched_iff (ss : Session) :
    ss.wf .sched = true ↔ ss.pins.legal = true ∧ ss.k < 782 ∧ ss.matched = none ∧
      (ss.handle.isSome = true ↔ 0 < ss.k) ∧ (ss.lastStatus.isSome = true ↔ 0 < ss.k) := by
  simp only [Session.wf, Config.scheduleLength, and_assoc, Bool.and_eq_true, decide_eq_true_eq,
    Option.isNone_iff_eq_none, beq_iff_eq, Bool.eq_iff_iff (b := decide _)]

theorem Session.wf_verify_iff (ss : Session) :
    ss.wf .verify = true ↔
      ss.pins.legal = true ∧ ss.k = 781 ∧ ss.handle.isSome = true ∧ ss.lastStatus.isSome = true := by
  simp [Session.wf, and_assoc]

theorem State.wf_iff_of_session {s : State} {ss : Session} (hs : s.session = some ss) :
    s.wf = true ↔ s.portWord = none ∧ ss.wf s.phase = true := by
  simp [State.wf, hs]

theorem State.wf_iff_of_noSession {s : State} (hs : s.session = none) :
    s.wf = true ↔ s.portWord = none ∧ s.phase = .idle := by
  simp [State.wf, hs]

theorem State.portWord_of_wf {s : State} (h : s.wf = true) : s.portWord = none := by
  simp only [State.wf, Bool.and_eq_true, Option.isNone_iff_eq_none] at h
  exact h.1

/-- A session exists in no well-formed state of phase `IDLE`. -/
theorem State.phase_ne_idle_of_wf {s : State} {ss : Session} (h : s.wf = true) (hs : s.session = some ss) :
    s.phase ≠ .idle := by
  intro hp
  have hwf := ((State.wf_iff_of_session hs).1 h).2
  rw [hp] at hwf
  exact absurd hwf (by simp [Session.wf])

/-- The invariant reads the phase, the session and `portWord` only. -/
theorem State.wf_congr {s t : State} (hp : t.phase = s.phase) (hs : t.session = s.session)
    (hw : t.portWord = s.portWord) : t.wf = s.wf := by
  simp [State.wf, hp, hs, hw]

theorem freshSession_wf {pins : Pins} (h : pins.legal = true) (x : Bits96) (log : LogTarget) :
    (freshSession pins x log).wf .sched = true := by
  simp [Session.wf_sched_iff, h]

/-- The answer to the step at a well-formed session's position leaves a session well formed in the next phase. -/
theorem nextSession_wf {i : Instr} {ss : Session} (hwf : ss.wf .sched = true)
    (hat : decodePosition ss.pins.din ss.k = some i) (a : PortAnswer) :
    (nextSession i ss a).wf (nextPhase i) = true := by
  obtain ⟨hlegal, hk, hmatched, hhandle, -⟩ := (Session.wf_sched_iff ss).1 hwf
  by_cases hclose : i = .closePort
  · have hk781 : ss.k = 781 := (eq_closePort_iff_of_decodePosition hat).1 hclose
    subst hclose
    have hsome : ss.handle.isSome = true := hhandle.2 (by omega)
    rw [nextPhase_closePort, Session.wf_verify_iff]
    simpa [hlegal, hk781, nextSession_handle_of_ne] using hsome
  · have hk781 : ss.k ≠ 781 := mt (eq_closePort_iff_of_decodePosition hat).2 hclose
    have hsome : (nextSession i ss a).handle.isSome = true := by
      by_cases hopen : i = .openPort
      · simp [hopen]
      · rw [nextSession_handle_of_ne hopen]
        exact hhandle.2 (Nat.pos_of_ne_zero (mt (eq_openPort_iff_of_decodePosition hat).2 hopen))
    rw [nextPhase_of_ne hclose, Session.wf_sched_iff, nextSession_k_of_ne hclose]
    exact ⟨by simpa using hlegal, by omega, by simpa using hmatched, by simp [hsome], by simp⟩

theorem HostMove.wf {s t : State} (h : HostMove s t) (hwf : s.wf = true) : t.wf = true := by
  cases h with
  | reply lines r => exact (State.wf_congr rfl rfl rfl).trans hwf
  | accept pins x log hidle hlegal =>
    have hw : s.portWord = none := State.portWord_of_wf hwf
    exact (State.wf_iff_of_session rfl).2 ⟨hw, freshSession_wf hlegal x log⟩

theorem SequencerMove.wf {s t : State} (h : SequencerMove s t) (hwf : s.wf = true) : t.wf = true := by
  have hw := State.portWord_of_wf hwf
  cases h with
  | stay => exact hwf
  | operate hat hmove =>
    obtain ⟨hp, hs⟩ := hmove.running
    have hss := ((State.wf_iff_of_session hs).1 hwf).2
    rw [hp] at hss
    rw [State.wf_iff_of_session hmove.session, hmove.portWord, hmove.phase]
    exact ⟨hw, nextSession_wf hss hat _⟩
  | compare hphase hs =>
    have hss := ((State.wf_iff_of_session hs).1 hwf).2
    rw [hphase, Session.wf_verify_iff] at hss
    refine (State.wf_iff_of_session rfl).2 ⟨hw, ?_⟩
    rw [show (afterCompare s _).phase = .verify from hphase, Session.wf_verify_iff]
    exact hss
  | finish => exact (State.wf_iff_of_noSession rfl).2 ⟨hw, rfl⟩

/-- Settles O38, from what a host command and the sequencer can do. -/
theorem everyStepKeepsTheInvariant : Obligations.EveryStepKeepsTheInvariant := by
  intro s t hwf h
  obtain ⟨rest, hm⟩ | hm := step_moves (State.portWord_of_wf hwf) h
  · exact hm.wf ((State.wf_congr rfl rfl rfl).trans hwf)
  · exact hm.wf ((State.wf_congr rfl rfl rfl).trans hwf)

/-! ### What a step leaves of a session -/

/-- Settles O40: no move rewrites the pin assignment, the pattern or the log target. -/
theorem pinsAndPatternAreConstantInASession : Obligations.PinsAndPatternAreConstantInASession := by
  intro s t ss hwf hss h
  obtain ⟨rest, hm⟩ | hm := step_moves (State.portWord_of_wf hwf) h
  · exact .inr ⟨ss, (hm.frame (State.phase_ne_idle_of_wf hwf hss)).2.trans hss, rfl, rfl, rfl⟩
  · cases hm with
    | stay hidle => exact absurd hidle (State.phase_ne_idle_of_wf hwf hss)
    | operate _ hmove =>
      obtain rfl := Option.some.inj (hss.symm.trans hmove.running.2)
      exact .inr ⟨_, hmove.session, by simp⟩
    | compare _ hs =>
      obtain rfl := Option.some.inj (hss.symm.trans hs)
      exact .inr ⟨_, rfl, rfl, rfl, rfl⟩
    | finish => exact .inl rfl

/-- In phase `SCHED` the sequencer's step is the operation at the session's position. -/
theorem SequencerMove.operate_of_running {s t : State} {ss : Session} (h : SequencerMove s t) (hr : Running s ss) :
    ∃ i a, decodePosition ss.pins.din ss.k = some i ∧ PortMove i ss a s t := by
  obtain ⟨hp, hs⟩ := hr
  cases h with
  | stay hidle => simp [hp] at hidle
  | operate hat hmove =>
    obtain rfl := Option.some.inj (hs.symm.trans hmove.running.2)
    exact ⟨_, _, hat, hmove⟩
  | compare hphase => simp [hp] at hphase
  | finish hphase => simp [hp] at hphase

/-- In phase `VERIFY` the sequencer's step does not move the position (assumption 21). -/
theorem SequencerMove.k_of_verify {s t : State} {ss ss' : Session} (h : SequencerMove s t) (hp : s.phase = .verify)
    (hs : s.session = some ss) (ht : t.session = some ss') : ss'.k = ss.k := by
  cases h with
  | stay hidle => simp [hp] at hidle
  | operate _ hmove => exact absurd (hp.symm.trans hmove.running.1) (by decide)
  | compare _ hs0 =>
    obtain rfl := Option.some.inj (hs.symm.trans hs0)
    obtain rfl := Option.some.inj ht
    rfl
  | finish => simp at ht

/-- Settles O41. -/
theorem positionAdvancesByExactlyOne : Obligations.PositionAdvancesByExactlyOne := by
  intro s t ss hwf hss h
  have hw := State.portWord_of_wf hwf
  have hne := State.phase_ne_idle_of_wf hwf hss
  have hsched (hp : s.phase = .sched) (hd : ∀ r rest, s.hostIn = r :: rest → 0 < r.wait) :=
    (sequencerMove_of_step ⟨hw, hd⟩ h).operate_of_running ⟨hp, hss⟩
  refine ⟨fun hp hd hk => ?_, fun hp hd hk => ?_, fun hp hdue => ?_, fun hp ss' hss' => ?_⟩
  · obtain ⟨i, a, hat, hmove⟩ := hsched hp hd
    have hi : i ≠ .closePort := fun hi => hk.ne ((eq_closePort_iff_of_decodePosition hat).1 hi)
    exact ⟨hmove.phase.trans (nextPhase_of_ne hi), _, hmove.session, nextSession_k_of_ne hi ss a⟩
  · obtain ⟨i, a, hat, hmove⟩ := hsched hp hd
    obtain rfl := (eq_closePort_iff_of_decodePosition hat).2 hk
    exact hmove.phase
  · obtain ⟨r, rest, hr, h0⟩ := hdue
    obtain ⟨hphase, hsession⟩ := (hostMove_of_step hw hr h0 h).frame hne
    exact ⟨hphase.trans hp, hsession.trans hss⟩
  · obtain ⟨rest, hm⟩ | hm := step_moves hw h
    · rw [(hm.frame hne).2] at hss'
      rw [Option.some.inj (hss'.symm.trans hss)]
    · exact hm.k_of_verify hp hss hss'

/-- Settles O42. -/
theorem captureChangesOnlyAtAnOkSample : Obligations.CaptureChangesOnlyAtAnOkSample := by
  intro s t ss ss' i hwf hss h hss' hne
  obtain ⟨rest, hm⟩ | hm := step_moves (State.portWord_of_wf hwf) h
  · have hsame : t.session = some ss := (hm.frame (State.phase_ne_idle_of_wf hwf hss)).2.trans hss
    rw [Option.some.inj (hss'.symm.trans hsame)] at hne
    exact absurd rfl hne
  · cases hm with
    | stay hidle => exact absurd hidle (State.phase_ne_idle_of_wf hwf hss)
    | @operate op _ a _ hat hmove =>
      obtain rfl := Option.some.inj (hss.symm.trans hmove.running.2)
      obtain rfl := Option.some.inj (hss'.symm.trans hmove.session)
      obtain ⟨⟨m, rfl⟩, hok⟩ := sample_of_nextSession_capture_ne hne
      exact ⟨hmove.running.1, ⟨m, (Option.some.inj (position_of_decodePosition hat)).symm⟩,
        a.status, nextSession_lastStatus _ _ _, hok⟩
    | compare _ hs =>
      obtain rfl := Option.some.inj (hss.symm.trans hs)
      obtain rfl := Option.some.inj hss'
      exact absurd rfl hne
    | finish => simp at hss'

/-! ### Outputs only grow -/

/-- The outputs of `s` are initial parts of those of `t`. -/
def OutputsGrow (s t : State) : Prop :=
  s.trace <+: t.trace ∧ s.diag <+: t.diag ∧ s.replies <+: t.replies

theorem PortMove.outputsGrow {i : Instr} {ss : Session} {a : PortAnswer} {s t : State} (h : PortMove i ss a s t) :
    OutputsGrow s t := by
  obtain ⟨htrace, hdiag, hreplies⟩ := h.outputs
  exact ⟨⟨_, htrace.symm⟩, ⟨_, hdiag.symm⟩, ⟨[], by simp [hreplies]⟩⟩

theorem HostMove.outputsGrow {s t : State} (h : HostMove s t) : OutputsGrow s t := by
  cases h with
  | reply lines r => exact ⟨List.prefix_rfl, ⟨lines, rfl⟩, ⟨[r], rfl⟩⟩
  | accept => exact ⟨List.prefix_rfl, List.prefix_rfl, List.prefix_rfl⟩

theorem SequencerMove.outputsGrow {s t : State} (h : SequencerMove s t) : OutputsGrow s t := by
  cases h with
  | stay => exact ⟨List.prefix_rfl, List.prefix_rfl, List.prefix_rfl⟩
  | operate _ hmove => exact hmove.outputsGrow
  | compare => exact ⟨List.prefix_rfl, ⟨_, rfl⟩, List.prefix_rfl⟩
  | finish => exact ⟨List.prefix_rfl, List.prefix_rfl, ⟨_, rfl⟩⟩

/-- Settles O44. -/
theorem outputsOnlyGrow : Obligations.OutputsOnlyGrow := by
  intro s t h
  cases hw : s.portWord with
  | some w =>
    obtain ⟨i, ss, a, hm⟩ := portMove_of_step hw h
    exact hm.outputsGrow
  | none =>
    obtain ⟨rest, hm⟩ | hm := step_moves hw h
    · exact hm.outputsGrow
    · exact hm.outputsGrow

/-! ### A whole RUN

An induction over the port's answers, packaged once: what holds when the session is created and is kept by the
operation at each position holds after all 782. -/

theorem reaches_zero_iff {s t : State} : Reaches 0 s t ↔ s = t := by
  show Host.Outcome.next s = Host.Outcome.next t ↔ s = t
  simp

theorem reaches_succ_iff {n : Nat} {s u : State} :
    Reaches (n + 1) s u ↔ ∃ t, step s = .next t ∧ Reaches n t u := by
  have hcore : core.step s = step s := rfl
  cases hs : step s <;> simp [Reaches, Host.Core.run, hcore, hs]

theorem Reaches.zero (s : State) : Reaches 0 s s := reaches_zero_iff.2 rfl

theorem Reaches.head {n : Nat} {s t u : State} (h : step s = .next t) (hr : Reaches n t u) : Reaches (n + 1) s u :=
  reaches_succ_iff.2 ⟨t, h, hr⟩

theorem Reaches.trans {m n : Nat} {s t u : State} (h : Reaches m s t) (hr : Reaches n t u) : Reaches (m + n) s u := by
  induction m generalizing s with
  | zero =>
    obtain rfl := reaches_zero_iff.1 h
    simpa using hr
  | succ m ih =>
    obtain ⟨s', hs, h'⟩ := reaches_succ_iff.1 h
    rw [Nat.add_right_comm]
    exact .head hs (ih h')

/-- The machine after operation `i` of session `ss` took the planned answer `a`, with the answers `rest` to come. -/
def afterPlanned (s : State) (i : Instr) (ss : Session) (a : PortAnswer) (rest : List (Option PortAnswer)) : State :=
  { s with portPlan := rest }.answered (issuedOp i ss) ss a (nextSession i ss a) (nextPhase i)

theorem step_of_planned {s : State} {ss : Session} {i : Instr} {a : PortAnswer} {rest : List (Option PortAnswer)}
    (hq : Quiet s) (hr : Running s ss) (hat : decodePosition ss.pins.din ss.k = some i)
    (hp : s.portPlan = some a :: rest) : step s = .next (afterPlanned s i ss a rest) := by
  rw [step_of_running hq hr hat, exec_eq_transact (not_isHostOp_of_decodePosition hat),
    transact_of_answers hr (.inl ⟨rest, hp, rfl⟩)]
  rfl

/-- `P`, a property of the answers taken so far and the state, is kept by the operation at every position. -/
def KeptBySchedule (P : List PortAnswer → State → Prop) : Prop :=
  ∀ (done : List PortAnswer) (s : State) (ss : Session) (i : Instr) (a : PortAnswer)
    (rest : List (Option PortAnswer)),
    P done s → Running s ss → ss.k = done.length → decodePosition ss.pins.din ss.k = some i →
    P (done ++ [a]) (afterPlanned s i ss a rest)

/-- The schedule has ended in `t` and the comparison is still to come, with the session `ss` and the plan `rest`. -/
structure ScheduleEnded (t : State) (ss : Session) (rest : List (Option PortAnswer)) : Prop where
  quiet : Quiet t
  phase : t.phase = .verify
  session : t.session = some ss
  matched : ss.matched = none
  portPlan : t.portPlan = rest

/-- From any position, a property kept by the schedule holds when the schedule has ended. -/
theorem schedule_induction {P : List PortAnswer → State → Prop} (hkept : KeptBySchedule P)
    (a : PortAnswer) (todo : List PortAnswer) (rest : List (Option PortAnswer)) {done : List PortAnswer} {s : State}
    {ss : Session} (hP : P done s) (hq : Quiet s) (hr : Running s ss) (hk : ss.k = done.length)
    (hm : ss.matched = none) (hlen : done.length + (todo.length + 1) = 782)
    (hp : s.portPlan = (a :: todo).map some ++ rest) :
    ∃ t ss', Reaches (todo.length + 1) s t ∧ ScheduleEnded t ss' rest ∧ P (done ++ a :: todo) t := by
  obtain ⟨i, hat⟩ := exists_decodePosition ss.pins.din (show ss.k < 782 by omega)
  have hstep := step_of_planned hq hr hat hp
  have hP' := hkept done s ss i a (todo.map some ++ rest) hP hr hk hat
  have hm' : (nextSession i ss a).matched = none := by simpa using hm
  cases todo with
  | nil =>
    simp only [List.length_nil] at hlen
    obtain rfl := (eq_closePort_iff_of_decodePosition hat).2 (by omega)
    exact ⟨_, _, .head hstep (.zero _), ⟨hq, rfl, rfl, hm', rfl⟩, hP'⟩
  | cons b todo =>
    simp only [List.length_cons] at hlen
    have hi : i ≠ .closePort := fun hi => by
      have := (eq_closePort_iff_of_decodePosition hat).1 hi
      omega
    have hr' : Running (afterPlanned s i ss a ((b :: todo).map some ++ rest)) (nextSession i ss a) :=
      ⟨nextPhase_of_ne hi, rfl⟩
    obtain ⟨t, ss', hreach, hend, hPt⟩ := schedule_induction hkept b todo rest hP' hq hr'
      (by simp [nextSession_k_of_ne hi, hk]) hm' (by simp; omega) rfl
    exact ⟨t, ss', .head hstep hreach, hend, by simpa using hPt⟩

/-- The machine once the session `ss` of `t` was compared and returned to the host (R142). -/
def afterReturn (t : State) (ss : Session) : State :=
  (t.appendDiag [traceLine (some ss.log) ss.pattern ss.capture]).endSession ss.capture (verdict ss.pattern ss.capture)

/-- The two steps of the VERIFY phase (assumption 11). -/
theorem ScheduleEnded.reaches_afterReturn {t : State} {ss : Session} {rest : List (Option PortAnswer)}
    (h : ScheduleEnded t ss rest) : Reaches 2 t (afterReturn t ss) := by
  obtain ⟨hq, hp, hs, hm, -⟩ := h
  have hcompare : step t = .next (afterCompare t ss) := by
    rw [step_of_verify hq hp]
    simp [verifyPhase, hs, hm, afterCompare]
  have hreturn : step (afterCompare t ss) = .next (afterReturn t ss) := step_of_verify hq hp
  exact .head hcompare (.head hreturn (.zero _))

/-- A property that holds when an accepted RUN has created its session, and that the schedule keeps, holds of all the
answers before the comparison and the return. -/
theorem run_induction {P : List PortAnswer → State → Prop} (hkept : KeptBySchedule P) {s : State} {pins : Pins}
    {answers : List PortAnswer} {rest : List (Option PortAnswer)} (hlegal : pins.legal = true)
    (hready : ReadyToRun s answers rest) (x : Bits96) (log : LogTarget)
    (h0 : P [] (s.beginSession (freshSession pins x log))) :
    ∃ t ss, ScheduleEnded t ss rest ∧ P answers t ∧ RunsTo s pins x log (afterReturn t ss) := by
  obtain ⟨hidle, hq, hlen, hplan⟩ := hready
  obtain ⟨a, todo, rfl⟩ := List.exists_cons_of_length_eq_add_one hlen
  obtain ⟨t, ss, hreach, hend, hP⟩ := schedule_induction hkept a todo rest h0 (hq : Quiet (s.beginSession _))
    (show Running (s.beginSession (freshSession pins x log)) _ from ⟨rfl, rfl⟩) rfl rfl (by simpa using hlen) hplan
  rw [show todo.length + 1 = 782 from hlen] at hreach
  exact ⟨t, ss, hend, hP, _, exec_run_of_legal hidle hlegal x log, hreach.trans hend.reaches_afterReturn⟩

/-- The records made since `s0` are one for each answer in `done`; once OPEN is answered, its handle is the session's
and that of every record but OPEN's (R29). -/
def HandlePassed (s0 : State) (done : List PortAnswer) (s : State) : Prop :=
  ∃ records, s.trace = s0.trace ++ records ∧ records.length = done.length ∧
    ∀ a, done.head? = some a →
      (∀ ss, s.session = some ss → ss.handle = some a.handle) ∧
      ∀ r ∈ records, r.op ≠ .openPort → r.handle = some a.handle

theorem handlePassed_kept (s0 : State) : KeptBySchedule (HandlePassed s0) := by
  rintro done s ss i a rest ⟨records, htrace, hlen, hpassed⟩ hr hk hat
  refine ⟨records ++ [recordOf (issuedOp i ss) ss a s.settleDue], ?_, by simp [hlen], ?_⟩
  · simp [afterPlanned, htrace]
  cases done with
  | nil =>
    obtain rfl := (eq_openPort_iff_of_decodePosition hat).2 hk
    obtain rfl := List.eq_nil_of_length_eq_zero hlen
    rintro _ ⟨⟩
    refine ⟨fun ss' hss' => ?_, fun r hmem hop => ?_⟩
    · obtain rfl := Option.some.inj hss'
      rfl
    · obtain rfl : r = _ := List.mem_singleton.1 hmem
      exact absurd rfl hop
  | cons b done =>
    rintro _ ⟨⟩
    obtain ⟨hsession, hrecords⟩ := hpassed _ rfl
    have hi : i ≠ .openPort := fun hi => by
      simp [(eq_openPort_iff_of_decodePosition hat).1 hi] at hk
    refine ⟨fun ss' hss' => ?_, fun r hmem hop => ?_⟩
    · obtain rfl := Option.some.inj hss'
      rw [nextSession_handle_of_ne hi]
      exact hsession ss hr.2
    · rcases List.mem_append.1 hmem with hmem | hmem
      · exact hrecords r hmem hop
      · obtain rfl : r = _ := List.mem_singleton.1 hmem
        exact (recordOf_handle_of_ne hop ss a _).trans (hsession ss hr.2)

/-- Settles O53, by induction over the answers of the port. -/
theorem runPassesTheHandleUnchanged : Obligations.RunPassesTheHandleUnchanged := by
  intro s pins x log answers rest hlegal hready
  obtain ⟨t, ss, -, ⟨records, htrace, hlen, hpassed⟩, hruns⟩ :=
    run_induction (handlePassed_kept s) hlegal hready x log ⟨[], by simp, rfl, by simp⟩
  obtain ⟨-, -, h782, -⟩ := hready
  obtain ⟨a, todo, rfl⟩ := List.exists_cons_of_length_eq_add_one h782
  obtain ⟨-, hrecords⟩ := hpassed a rfl
  exact ⟨_, records, a, hruns, htrace, rfl, hlen.trans h782, hrecords⟩

/-! ### Host operations, stops and power-up -/

/-- Settles O10. -/
theorem acceptedRunCreatesTheSession : Obligations.AcceptedRunCreatesTheSession := by
  intro cs ck dout din x log s hidle hdistinct
  exact exec_run_of_legal hidle ((distinct4_iff cs ck dout din).2 hdistinct) x log

/-- Settles O11. -/
theorem hostOperationsDoNotDisturbASession : Obligations.HostOperationsDoNotDisturbASession := by
  intro s hp
  refine ⟨fun cs ck dout din x log => exec_run_of_busy hp cs ck dout din x log, fun cs ck dout a b c => ?_,
    fun w r => ⟨_, _, by simp, exec_verify w r s⟩⟩
  refine ⟨_, ?_, exec_encode cs ck dout a b c s⟩
  split <;> simp

/-- The loop of R180's pseudocode ends with 1 iff it starts with 1 and meets no difference. -/
theorem foldl_clear_eq (p : Fin 96 → Bool) (l : List (Fin 96)) (v : Bool) :
    l.foldl (fun v i => if p i then false else v) v = (v && l.all fun i => !p i) := by
  induction l generalizing v with
  | nil => simp
  | cons i l ih =>
    rw [List.foldl_cons, ih, List.all_cons]
    cases p i <;> simp

/-- The verdict is the equality of the two arrays (R180). -/
theorem verdict_eq_decide (w r : Bits96) : verdict w r = decide (w = r) := by
  rw [verdict, foldl_clear_eq, Bool.eq_iff_iff]
  simp only [Bool.true_and, List.all_eq_true, List.mem_finRange, true_implies, Bool.not_eq_true', bne_eq_false_iff_eq,
    decide_eq_true_eq]
  exact ⟨eq_of_elem, fun h i => by rw [h]⟩

theorem traceLine_eq (log : Option LogTarget) (w r : Bits96) :
    traceLine log w r = { log := log, event := .trace w r (decide (w = r)) } := by
  rw [traceLine, verdict_eq_decide]

/-- Settles O14. -/
theorem verifyAppendsOneTrace : Obligations.VerifyAppendsOneTrace := by
  refine ⟨fun w r s => ?_, fun s ss hd hp hs hm => ?_⟩
  · rw [exec_verify, traceLine_eq, verdict_eq_decide]
    rfl
  · rw [step_of_verify_nothingDue hd hp]
    simp [verifyPhase, hs, hm, traceLine_eq, verdict_eq_decide, State.appendDiag]

/-- Settles O31. -/
theorem noPortOperationOutsideTheSchedule : Obligations.NoPortOperationOutsideTheSchedule := by
  intro i s hi hs
  rw [exec_eq_transact hi]
  exact transact_of_not_running hs _ _ _

theorem step_of_idle_nothingDue {s : State} (hd : NothingDue s) (hp : s.phase = .idle) :
    step s = .next { s with hostIn := oneStepNearer s.hostIn } :=
  step_of_act (by simp [fetch_of_nothingDue hd, fetchSequencer, hp])

/-- Settles O34: a quiet machine is one with nothing due and nothing to come. -/
theorem idleMachineStaysAsItIs : Obligations.IdleMachineStaysAsItIs := by
  refine ⟨fun s hq hp => ?_, fun s hd hp => step_of_idle_nothingDue hd hp⟩
  have hnone : oneStepNearer s.hostIn = s.hostIn := by rw [hq.1]; rfl
  rw [step_of_idle_nothingDue hq.nothingDue hp, hnone]

/-- Settles O36. -/
theorem powerUpIsIdleWithoutASession : Obligations.PowerUpIsIdleWithoutASession := ⟨rfl, rfl⟩

/-- Settles O37. -/
theorem powerUpIsWellFormed : Obligations.PowerUpIsWellFormed :=
  (State.wf_iff_of_noSession rfl).2 ⟨rfl, rfl⟩

end Sys2Proof.Machine

/-! ## The port's levels and the schedule of a RUN (spec/42_sequencer.md)

`referenceListing_of_position` ties the reference listing to the schedule: at an operation's position stands the port
operation that it issues. Statements about the listing and about a whole RUN are read off from it. -/

namespace Sys2Proof.Machine

/-! ### Levels at the pins (R70, R74) -/

theorem bitAt_enc (p : Pins) (cs ck dout : Bool) (q : Pin) :
    bitAt (p.enc cs ck dout) q =
      if q = p.dout then dout else if q = p.ck then ck else if q = p.cs then cs else false :=
  bitAt_encodeByte _ _ _ _ _ _ _

theorem bitAt_ioMask (din q : Pin) : bitAt (ioMask din) q = !decide (q = din) := by
  have hq : q.toNat < 8 := q.isLt
  have hones : (0xFF#8).getLsbD q.toNat = true := by
    rw [show 0xFF#8 = BitVec.allOnes 8 from rfl, BitVec.getLsbD_allOnes]
    simpa using hq
  rw [bitAt, ioMask, BitVec.getLsbD_xor, getLsbD_one_shiftLeft _ _ din.isLt, hones, Bool.true_xor]
  simp only [BitVec.toNat_inj]

/-- Under SETMODE's mask every pin but DIN is driven, to its level in the output latch. -/
theorem drivenLevel_of_ioMask {port : Port} {din : Pin} (h : port.mask = ioMask din) (q : Pin) :
    drivenLevel port q = if q = din then none else some (bitAt port.outLatch q) := by
  rw [drivenLevel, h, bitAt_ioMask]
  by_cases hq : q = din <;> simp [hq]

theorem portAfter_write_of_ok {a : PortAnswer} (h : a.status.isOk = true) (b : Byte) (port : Port) :
    portAfter (.write b) a port = { port with outLatch := b } := by
  simp [portAfter, h]

/-- Settles O24: the latch holds the byte written, and the mask decides which of its bits are driven. -/
theorem okWriteDrivesExactlyTheOutputPins : Obligations.OkWriteDrivesExactlyTheOutputPins := by
  intro a b c s s1 ss ans hr ha hlegal hmask hok
  refine ⟨_, writeByte_of_answers hr ha _, ?_⟩
  obtain ⟨-, -, hport, -⟩ := answers_frame ha
  obtain ⟨hcsck, hcsdout, hcsdin, hckdout, hckdin, hdoutdin⟩ := (distinct4_iff _ _ _ _).1 hlegal
  have hdriven (q : Pin) :
      drivenLevel { s.port with outLatch := ss.pins.enc a b c } q =
        if q = ss.pins.din then none else some (bitAt (ss.pins.enc a b c) q) :=
    drivenLevel_of_ioMask (port := { s.port with outLatch := ss.pins.enc a b c }) hmask q
  simp only [State.answered_port, hport, portAfter_write_of_ok hok, hdriven, bitAt_enc]
  refine ⟨?_, ?_, ?_, by simp, fun q hcs hck hdout hdin => ?_⟩
  · simp [hcsdin, hcsdout, hcsck]
  · simp [hckdin, hckdout]
  · simp [hdoutdin]
  · simp [hdin, hdout, hck, hcs]

/-! ### The reference listing by position (R89, R160) -/

/-- Where every part of a `flatMap` has length `n`, its element `n * i + j` is element `j` of part `i`. -/
theorem getElem?_flatMap_of_length {α β : Type} {f : α → List β} {n : Nat} (hf : ∀ a, (f a).length = n) (l : List α)
    (i : Nat) {j : Nat} (hj : j < n) : (l.flatMap f)[n * i + j]? = l[i]?.bind fun a => (f a)[j]? := by
  induction l generalizing i with
  | nil => simp
  | cons a l ih =>
    rw [List.flatMap_cons]
    cases i with
    | zero => simp [List.getElem?_append_left (show j < (f a).length by rw [hf]; exact hj)]
    | succ i =>
      have hindex : n * (i + 1) + j = (f a).length + (n * i + j) := by rw [hf, Nat.mul_succ]; omega
      rw [hindex, List.getElem?_append_right (Nat.le_add_right _ _), Nat.add_sub_cancel_left, ih]
      simp

section
variable (p : Pins) (x : Bits96)

/-- The 96 iterations of a pass. -/
def iterationOps : List PortOp := (List.finRange 96).flatMap fun i => bitCycleOps p (elem x i)

theorem passOps_eq : passOps p x = passStartOps p ++ iterationOps p x ++ latchSyncOps p (lastElem x) := rfl

theorem iterationOps_length : (iterationOps p x).length = 384 := by
  have hfour (i : Fin 96) : (bitCycleOps p (elem x i)).length = 4 := rfl
  simp [iterationOps, List.length_flatMap, hfour]

theorem passOps_length : (passOps p x).length = 388 := by
  simp [passOps_eq, iterationOps_length, passStartOps, latchSyncOps]

theorem referenceListing_length : (referenceListing p x).length = 782 := by
  simp [referenceListing, expand, passOps_length, setupOps, wakeOps]

theorem passOps_iteration (i : Fin 96) {j : Nat} (hj : j < 4) :
    (passOps p x)[1 + 4 * i.val + j]? = (bitCycleOps p (elem x i))[j]? := by
  have hi := i.isLt
  have hindex : 1 + 4 * i.val + j = (passStartOps p).length + (4 * i.val + j) := Nat.add_assoc _ _ _
  rw [passOps_eq, List.append_assoc, hindex, List.getElem?_append_right (Nat.le_add_right _ _), Nat.add_sub_cancel_left,
    List.getElem?_append_left (by rw [iterationOps_length]; omega), iterationOps,
    getElem?_flatMap_of_length (n := 4) (fun _ => rfl) _ _ hj]
  simp

theorem passOps_latch (j : Nat) : (passOps p x)[385 + j]? = (latchSyncOps p (lastElem x))[j]? := by
  have hbefore : (passStartOps p ++ iterationOps p x).length = 385 := by simp [iterationOps_length, passStartOps]
  rw [passOps_eq, List.getElem?_append_right (by omega), hbefore, Nat.add_sub_cancel_left]

theorem referenceListing_eq :
    referenceListing p x = (setupOps p ++ wakeOps p) ++ (passOps p x ++ (passOps p x ++ [.closePort])) := by
  simp [referenceListing, expand]

/-- After SETUP and WAKE come the passes and CLOSE. -/
theorem referenceListing_add_five (n : Nat) :
    (referenceListing p x)[5 + n]? = (passOps p x ++ (passOps p x ++ [.closePort]))[n]? := by
  have hbegin : (setupOps p ++ wakeOps p).length = 5 := rfl
  rw [referenceListing_eq, List.getElem?_append_right (by omega), hbegin, Nat.add_sub_cancel_left]

/-- After the first pass come the second and CLOSE. -/
theorem referenceListing_add_393 (n : Nat) :
    (referenceListing p x)[393 + n]? = (passOps p x ++ [.closePort])[n]? := by
  have hlen := passOps_length p x
  rw [show 393 + n = 5 + (388 + n) by omega, referenceListing_add_five, List.getElem?_append_right (by omega), hlen,
    Nat.add_sub_cancel_left]

theorem referenceListing_pass (m : Fin 2) {r : Nat} (hr : r < 388) :
    (referenceListing p x)[passBase m + r]? = (passOps p x)[r]? := by
  have hlt : r < (passOps p x).length := by rwa [passOps_length]
  match m with
  | 0 => exact (referenceListing_add_five p x r).trans (List.getElem?_append_left hlt)
  | 1 => exact (referenceListing_add_393 p x r).trans (List.getElem?_append_left hlt)

theorem referenceListing_close : (referenceListing p x)[781]? = some .closePort := by
  have hlen := passOps_length p x
  rw [show 781 = 393 + 388 from rfl, referenceListing_add_393, List.getElem?_append_right hlen.le]
  simp [hlen]

end

/-- At the position of an operation the listing has the port operation it issues (R145, R160). -/
theorem referenceListing_of_position {i : Instr} {k : Nat} (hk : position i = some k) (ss : Session)
    (hmask : ∀ mask, i = .setMode mask → mask = ioMask ss.pins.din) :
    (referenceListing ss.pins ss.pattern)[k]? = some (issuedOp i ss) := by
  have hiteration (m : Fin 2) (b : Fin 96) (j : Nat) (hj : j < 4) :
      (referenceListing ss.pins ss.pattern)[passBase m + (1 + 4 * b.val + j)]? =
        (bitCycleOps ss.pins (elem ss.pattern b))[j]? :=
    (referenceListing_pass _ _ m (by omega)).trans (passOps_iteration _ _ b hj)
  have hlatch (m : Fin 2) (j : Nat) (hj : j < 3) :
      (referenceListing ss.pins ss.pattern)[passBase m + (385 + j)]? =
        (latchSyncOps ss.pins (lastElem ss.pattern))[j]? :=
    (referenceListing_pass _ _ m (by omega)).trans (passOps_latch _ _ j)
  cases i with
  | run | encode | verify | write | read => cases hk
  | openPort | resetPort | wakeLo | wakeHi => cases hk; rfl
  | setMode mask => cases hk; rw [hmask mask rfl]; rfl
  | closePort => cases hk; exact referenceListing_close _ _
  | passStart m => cases hk; exact referenceListing_pass _ _ m (r := 0) (by omega)
  | present m b => cases hk; rw [Nat.add_assoc]; exact hiteration m b 0 (by omega)
  | rise m b =>
    obtain rfl : passBase m + (1 + 4 * b.val + 1) = k := by rw [← Option.some.inj hk]; omega
    exact hiteration m b 1 (by omega)
  | fall m b =>
    obtain rfl : passBase m + (1 + 4 * b.val + 2) = k := by rw [← Option.some.inj hk]; omega
    exact hiteration m b 2 (by omega)
  | sample m b =>
    obtain rfl : passBase m + (1 + 4 * b.val + 3) = k := by rw [← Option.some.inj hk]; omega
    exact hiteration m b 3 (by omega)
  | latchHi1 m => cases hk; exact hlatch m 0 (by omega)
  | latchLo m => cases hk; exact hlatch m 1 (by omega)
  | latchHi2 m => cases hk; exact hlatch m 2 (by omega)

/-- SETMODE's mask in the schedule is that of the session's DIN (R116). -/
theorem mask_of_decodePosition {din : Pin} {k : Nat} {mask : Byte} (h : decodePosition din k = some (.setMode mask)) :
    mask = ioMask din := by
  obtain rfl : k = 2 := (Option.some.inj (position_of_decodePosition h)).symm
  exact (Instr.setMode.inj (Option.some.inj h)).symm

/-- The operation that the sequencer issues at its position is the listing's (R145). -/
theorem referenceListing_of_decodePosition {ss : Session} {i : Instr} {k : Nat}
    (h : decodePosition ss.pins.din k = some i) :
    (referenceListing ss.pins ss.pattern)[k]? = some (issuedOp i ss) :=
  referenceListing_of_position (position_of_decodePosition h) ss fun _ hi => mask_of_decodePosition (hi ▸ h)

/-! ### Consecutive register bytes (R58) -/

theorem issuedOp_of_writtenByte {ss : Session} {i : Instr} {b : Byte} (h : writtenByte ss i = some b) :
    issuedOp i ss = .write b := by
  cases i <;> cases h <;> rfl

theorem writtenByte_of_issuedOp {ss : Session} {i : Instr} {b : Byte} (h : issuedOp i ss = .write b) :
    writtenByte ss i = some b := by
  cases i <;> cases h <;> rfl

/-- A writing step's byte stands in the listing at the step's position. -/
theorem referenceListing_of_writtenByte {ss : Session} {i : Instr} {k : Nat} {b : Byte} (hk : position i = some k)
    (hb : writtenByte ss i = some b) : (referenceListing ss.pins ss.pattern)[k]? = some (.write b) := by
  rw [← issuedOp_of_writtenByte hb]
  refine referenceListing_of_position hk ss fun mask hi => ?_
  subst hi
  cases hb

/-- A byte of the listing is that of the step at its position. -/
theorem exists_step_of_referenceListing_write {ss : Session} {k : Nat} {b : Byte}
    (h : (referenceListing ss.pins ss.pattern)[k]? = some (.write b)) :
    ∃ i, position i = some k ∧ writtenByte ss i = some b := by
  obtain ⟨hk, -⟩ := List.getElem?_eq_some_iff.1 h
  rw [referenceListing_length] at hk
  obtain ⟨i, hat⟩ := exists_decodePosition ss.pins.din hk
  have hop := Option.some.inj ((referenceListing_of_decodePosition hat).symm.trans h)
  exact ⟨i, position_of_decodePosition hat, writtenByte_of_issuedOp hop⟩

/-- The bytes differ at most at one pin. -/
def OnePinApart (b b' : Byte) : Prop := ∃ q : Pin, ∀ q' : Pin, q' ≠ q → bitAt b q' = bitAt b' q'

section
variable (p : Pins)

theorem onePinApart_cs (cs cs' ck dout : Bool) : OnePinApart (p.enc cs ck dout) (p.enc cs' ck dout) :=
  ⟨p.cs, fun q hq => by simp [bitAt_enc, hq]⟩

theorem onePinApart_ck (cs ck ck' dout : Bool) : OnePinApart (p.enc cs ck dout) (p.enc cs ck' dout) :=
  ⟨p.ck, fun q hq => by simp [bitAt_enc, hq]⟩

theorem onePinApart_dout (cs ck dout dout' : Bool) : OnePinApart (p.enc cs ck dout) (p.enc cs ck dout') :=
  ⟨p.dout, fun q hq => by simp [bitAt_enc, hq]⟩

end

/-- The entry at `k'` is a WRITE of `b`, and only READs stand between `k` and `k'`. -/
structure NextWrite (ops : List PortOp) (k k' : Nat) (b : Byte) : Prop where
  lt : k < k'
  write : ops[k']? = some (.write b)
  reads : ∀ j, k < j → j < k' → ops[j]? = some .read

/-- Nothing but a READ is passed over on the way to the next WRITE. -/
theorem NextWrite.le_of_not_read {ops : List PortOp} {k k' n : Nat} {b : Byte} (h : NextWrite ops k k' b) (hn : k < n)
    (hne : ops[n]? ≠ some .read) : k' ≤ n :=
  Nat.le_of_not_lt fun hlt => hne (h.reads n hn hlt)

/-- The next WRITE is unique. -/
theorem NextWrite.unique {ops : List PortOp} {k n n' : Nat} {b b' : Byte} (h : NextWrite ops k n b)
    (h' : NextWrite ops k n' b') : n = n' ∧ b = b' := by
  have hle : n ≤ n' := h.le_of_not_read h'.lt (by simp [h'.write])
  have hle' : n' ≤ n := h'.le_of_not_read h.lt (by simp [h.write])
  obtain rfl : n = n' := Nat.le_antisymm hle hle'
  exact ⟨rfl, PortOp.write.inj (Option.some.inj (h.write.symm.trans h'.write))⟩

section
variable {ss : Session}

/-- The next WRITE, where the step one position on writes. -/
theorem nextWrite_succ {i : Instr} {k : Nat} {b : Byte} (hi : position i = some (k + 1))
    (hb : writtenByte ss i = some b) : NextWrite (referenceListing ss.pins ss.pattern) k (k + 1) b :=
  ⟨Nat.lt_succ_self k, referenceListing_of_writtenByte hi hb, fun _ _ _ => by omega⟩

/-- The next WRITE after FALL(i), where the step after SAMPLE(i) writes. -/
theorem nextWrite_of_fall {m : Fin 2} {j : Fin 96} {i : Instr} {k : Nat} {b : Byte}
    (hfall : position (.fall m j) = some k) (hi : position i = some (k + 2)) (hb : writtenByte ss i = some b) :
    NextWrite (referenceListing ss.pins ss.pattern) k (k + 2) b := by
  refine ⟨by omega, referenceListing_of_writtenByte hi hb, fun n hkn hn => ?_⟩
  obtain rfl : n = k + 1 := by omega
  cases hfall
  exact referenceListing_of_position (i := .sample m j) (by simp [position]; omega) ss fun _ h => by cases h

/-- No WRITE follows the last latch write. -/
theorem not_nextWrite_780 {k' : Nat} {b : Byte} : ¬ NextWrite (referenceListing ss.pins ss.pattern) 780 k' b := by
  intro h
  have hclose := referenceListing_close ss.pins ss.pattern
  have hle : k' ≤ 781 := h.le_of_not_read (by omega) (by simp [hclose])
  obtain rfl : k' = 781 := Nat.le_antisymm hle h.lt
  simpa [hclose] using h.write

/-- Before PASS_START of pass 1 stands LATCH_HI2 of pass 0. -/
theorem nextWrite_passStart_one {i : Instr} {k : Nat} {b b' : Byte} (hi : position i = some k)
    (hb : writtenByte ss i = some b) (h : NextWrite (referenceListing ss.pins ss.pattern) k 393 b') :
    b = ss.pins.enc true false (elem ss.pattern 95) ∧ b' = ss.pins.enc false false false := by
  have hlatch := referenceListing_of_writtenByte (ss := ss) (i := .latchHi2 0) rfl rfl
  have hpass := referenceListing_of_writtenByte (ss := ss) (i := .passStart 1) rfl rfl
  obtain rfl : k = 392 := by
    have hlt := h.lt
    by_contra hne
    have hle : 393 ≤ 392 := h.le_of_not_read (by omega) (by rw [show 392 = passBase 0 + 387 from rfl, hlatch]; simp)
    omega
  have hwrite := referenceListing_of_writtenByte hi hb
  exact ⟨PortOp.write.inj (Option.some.inj (hwrite.symm.trans hlatch)),
    PortOp.write.inj (Option.some.inj (h.write.symm.trans hpass))⟩

/-- A step and the next that writes move one pin at most (R150 to R159), but for PASS_START of pass 1. -/
theorem onePinApart_of_nextWrite {i : Instr} {k k' : Nat} {b b' : Byte} (hi : position i = some k)
    (hb : writtenByte ss i = some b) (h : NextWrite (referenceListing ss.pins ss.pattern) k k' b')
    (hne : k' ≠ 393) : OnePinApart b b' := by
  have hnext {i' : Instr} {c : Byte} (hi' : position i' = some (k + 1)) (hc : writtenByte ss i' = some c) :
      b' = c := (h.unique (nextWrite_succ hi' hc)).2
  cases i with
  | run | encode | verify | openPort | resetPort | setMode | read | closePort | sample => cases hb
  | write => cases hi
  | wakeLo =>
    cases hi; cases hb
    rw [hnext (i' := .wakeHi) rfl rfl]
    exact onePinApart_cs _ _ _ _ _
  | wakeHi =>
    cases hi; cases hb
    rw [hnext (i' := .passStart 0) rfl rfl]
    exact onePinApart_cs _ _ _ _ _
  | passStart m =>
    cases hi; cases hb
    rw [hnext (i' := .present m 0) rfl rfl]
    exact onePinApart_dout _ _ _ _ _
  | present m j =>
    cases hi; cases hb
    rw [hnext (i' := .rise m j) (by simp [position]; omega) rfl]
    exact onePinApart_ck _ _ _ _ _
  | rise m j =>
    cases hi; cases hb
    rw [hnext (i' := .fall m j) (by simp [position]; omega) rfl]
    exact onePinApart_ck _ _ _ _ _
  | fall m j =>
    cases hb
    by_cases hlast : j = 95
    · subst hlast
      have hlatch : position (.latchHi1 m) = some (k + 2) := by rw [← Option.some.inj hi]; rfl
      rw [(h.unique (nextWrite_of_fall hi hlatch rfl)).2]
      exact onePinApart_cs _ _ _ _ _
    · have hval : (j + 1).val = j.val + 1 := Fin.val_add_one_of_lt (Fin.lt_last_iff_ne_last.2 hlast)
      have hpresent : position (.present m (j + 1)) = some (k + 2) := by
        rw [← Option.some.inj hi, position, hval, Option.some.injEq]
        omega
      rw [(h.unique (nextWrite_of_fall hi hpresent rfl)).2]
      exact onePinApart_dout _ _ _ _ _
  | latchHi1 m =>
    cases hi; cases hb
    rw [hnext (i' := .latchLo m) rfl rfl]
    exact onePinApart_cs _ _ _ _ _
  | latchLo m =>
    cases hi; cases hb
    rw [hnext (i' := .latchHi2 m) rfl rfl]
    exact onePinApart_cs _ _ _ _ _
  | latchHi2 m =>
    cases hi
    match m with
    | 0 => exact absurd (h.unique (nextWrite_succ (i := .passStart 1) rfl rfl)).1 hne
    | 1 => exact absurd h not_nextWrite_780

end

/-- Settles O48, in a session with the given pins and pattern. -/
theorem consecutiveBytesDifferInOnePin : Obligations.ConsecutiveBytesDifferInOnePin := by
  intro p x k k' b b' _ hlt hb hb' hreads
  obtain ⟨ss, rfl, rfl⟩ : ∃ ss : Session, ss.pins = p ∧ ss.pattern = x := ⟨freshSession p x 0, rfl, rfl⟩
  have h : NextWrite (referenceListing ss.pins ss.pattern) k k' b' := ⟨hlt, hb', hreads⟩
  obtain ⟨i, hi, hwritten⟩ := exists_step_of_referenceListing_write hb
  refine ⟨onePinApart_of_nextWrite hi hwritten h, fun hk' => ?_⟩
  subst hk'
  exact nextWrite_passStart_one hi hwritten h

/-! ### The operations and the events of a RUN (R145, R204) -/

/-- The session of `s`, if there is one, is a RUN's with these pins, pattern and log target. -/
def SessionOfRun (pins : Pins) (x : Bits96) (log : LogTarget) (s : State) : Prop :=
  ∀ ss, s.session = some ss → ss.pins = pins ∧ ss.pattern = x ∧ ss.log = log

section
variable {pins : Pins} {x : Bits96} {log : LogTarget} {s : State} {ss : Session}

theorem sessionOfRun_beginSession (s : State) (pins : Pins) (x : Bits96) (log : LogTarget) :
    SessionOfRun pins x log (s.beginSession (freshSession pins x log)) := by
  rintro _ ⟨⟩
  exact ⟨rfl, rfl, rfl⟩

theorem SessionOfRun.afterPlanned (h : SessionOfRun pins x log s) (hr : Running s ss) (i : Instr) (a : PortAnswer)
    (rest : List (Option PortAnswer)) : SessionOfRun pins x log (afterPlanned s i ss a rest) := by
  rintro _ ⟨⟩
  simpa using h ss hr.2

end

/-- The records made since `s0` are those of the first operations of the reference listing, one for each answer in
`done`, with their positions and the statuses answered (R80, R145). -/
def ScheduleIssued (s0 : State) (pins : Pins) (x : Bits96) (log : LogTarget) (done : List PortAnswer) (s : State) :
    Prop :=
  SessionOfRun pins x log s ∧ ∃ records, s.trace = s0.trace ++ records ∧
    records.map PortRecord.op = (referenceListing pins x).take done.length ∧
    records.map PortRecord.k = List.range done.length ∧
    records.map PortRecord.status = done.map PortAnswer.status

theorem scheduleIssued_kept (s0 : State) (pins : Pins) (x : Bits96) (log : LogTarget) :
    KeptBySchedule (ScheduleIssued s0 pins x log) := by
  rintro done s ss i a rest ⟨hsession, records, htrace, hop, hposition, hstatus⟩ hr hk hat
  obtain ⟨rfl, rfl, -⟩ := hsession ss hr.2
  have hlisted : (referenceListing ss.pins ss.pattern)[done.length]? = some (issuedOp i ss) :=
    hk ▸ referenceListing_of_decodePosition hat
  refine ⟨hsession.afterPlanned hr i a rest, records ++ [recordOf (issuedOp i ss) ss a s.settleDue], ?_, ?_, ?_, ?_⟩
  · simp [afterPlanned, htrace]
  · simp [hop, List.take_add_one, hlisted, recordOf]
  · simp [hposition, List.range_succ, hk, recordOf]
  · simp [hstatus, recordOf]

/-- Settles O52, by induction over the answers of the port. -/
theorem runIssuesExactlyTheReferenceSchedule : Obligations.RunIssuesExactlyTheReferenceSchedule := by
  intro s pins x log answers rest hlegal hready
  obtain ⟨t, ss, -, ⟨-, records, htrace, hop, hposition, hstatus⟩, hruns⟩ :=
    run_induction (scheduleIssued_kept s pins x log) hlegal hready x log
      ⟨sessionOfRun_beginSession s pins x log, [], by simp⟩
  obtain ⟨-, -, hlen, -⟩ := hready
  rw [hlen] at hop hposition
  rw [List.take_of_length_le (referenceListing_length pins x).le] at hop
  exact ⟨_, records, hruns, htrace, hop, hposition, hstatus⟩

/-- Within a pass only the SAMPLE positions read. -/
theorem errorKindAt_pass (m : Fin 2) {r : Nat} (hr : r < 388) :
    errorKindAt (passBase m + r) = if r ≠ 0 ∧ r ≤ 384 ∧ r % 4 = 0 then .readFailed else .writeFailed := by
  have hm := m.isLt
  have hoffset : (passBase m + r - 5) % 388 = r := by rw [passBase]; omega
  have hphase : (passBase m + r - 5) % 4 = r % 4 := by rw [passBase]; omega
  have hbounds : 5 ≤ passBase m + r ∧ passBase m + r < 781 := by rw [passBase]; omega
  have hnine : 9 ≤ passBase m + r ∧ r ≠ 0 ∧ r ≤ 384 ∧ r % 4 = 0 ↔ r ≠ 0 ∧ r ≤ 384 ∧ r % 4 = 0 := by
    rw [passBase]; omega
  unfold errorKindAt
  rw [if_neg (by omega), if_neg (by omega), if_neg (by omega), if_neg (by omega), hoffset, hphase]
  simp only [hnine]

/-- The kind of error at a position is that of the operation issued there (R160, R200). -/
theorem errorKindAt_of_position {i : Instr} {k : Nat} (hk : position i = some k) (ss : Session) :
    errorKindAt k = (issuedOp i ss).errorKind := by
  have hwrites (m : Fin 2) (r : Nat) (hr : r < 388) (hsample : r = 0 ∨ 384 < r ∨ r % 4 ≠ 0) :
      errorKindAt (passBase m + r) = .writeFailed :=
    (errorKindAt_pass m hr).trans (if_neg (by omega))
  cases i with
  | run | encode | verify | write | read => cases hk
  | openPort | resetPort | setMode | closePort | wakeLo | wakeHi => cases hk; rfl
  | passStart m => cases hk; exact hwrites m 0 (by omega) (.inl rfl)
  | present m b => cases hk; rw [Nat.add_assoc]; exact hwrites m _ (by omega) (by omega)
  | rise m b => cases hk; rw [Nat.add_assoc]; exact hwrites m _ (by omega) (by omega)
  | fall m b => cases hk; rw [Nat.add_assoc]; exact hwrites m _ (by omega) (by omega)
  | sample m b =>
    cases hk
    rw [Nat.add_assoc, errorKindAt_pass m (by omega), if_pos (by omega)]
    rfl
  | latchHi1 m | latchLo m | latchHi2 m => cases hk; exact hwrites m _ (by omega) (by omega)

/-- Since `s0` the diagnostic output holds one more event for each answer in `done` that is not ok, in order, and the
host has been answered nothing (R204). -/
def FailuresLogged (s0 : State) (pins : Pins) (x : Bits96) (log : LogTarget) (done : List PortAnswer) (s : State) :
    Prop :=
  SessionOfRun pins x log s ∧ s.replies = s0.replies ∧
    s.diag = s0.diag ++ done.zipIdx.flatMap fun ak => errorEvents (errorKindAt ak.2) log ak.2 ak.1.status

theorem failuresLogged_kept (s0 : State) (pins : Pins) (x : Bits96) (log : LogTarget) :
    KeptBySchedule (FailuresLogged s0 pins x log) := by
  rintro done s ss i a rest ⟨hsession, hreplies, hdiag⟩ hr hk hat
  obtain ⟨-, -, rfl⟩ := hsession ss hr.2
  have hraised : raised (issuedOp i ss) ss a = errorEvents (errorKindAt done.length) ss.log done.length a.status := by
    rw [raised_eq, hk, errorKindAt_of_position (hk ▸ position_of_decodePosition hat) ss]
  refine ⟨hsession.afterPlanned hr i a rest, hreplies, ?_⟩
  simp [afterPlanned, hdiag, hraised, List.zipIdx_append]

/-- Settles O54, by induction over the answers of the port. -/
theorem runLogsEachFailureInOrder : Obligations.RunLogsEachFailureInOrder := by
  intro s pins x log answers rest hlegal hready
  obtain ⟨t, ss, hend, ⟨hsession, hreplies, hdiag⟩, hruns⟩ :=
    run_induction (failuresLogged_kept s pins x log) hlegal hready x log
      ⟨sessionOfRun_beginSession s pins x log, rfl, by simp⟩
  obtain ⟨rfl, rfl, rfl⟩ := hsession ss hend.session
  refine ⟨_, ss.capture, hruns, ?_, ?_⟩
  · simp [afterReturn, hreplies, verdict_eq_decide]
  · simp [afterReturn, hdiag, traceLine_eq]

end Sys2Proof.Machine

/-! ## Encoding and decoding (spec/30_encoding.md)

Each decoder is characterised by an equation per kind of word, and what it accepts by an inversion lemma; the round
trips, the records at their positions and the host's refusals are read off from these. -/

namespace Sys2Proof.Machine

/-! ### The port decoder (R80, R85) -/

@[simp] theorem decodePort_ptWord_openPort : decodePort (ptWord 0x1#4 0x00#8) = .ok .openPort := rfl
@[simp] theorem decodePort_ptWord_resetPort : decodePort (ptWord 0x2#4 0x00#8) = .ok .resetPort := rfl
@[simp] theorem decodePort_ptWord_setMode (mask : Byte) : decodePort (ptWord 0x3#4 mask) = .ok (.setMode mask) := by
  simp [decodePort, isPortCode]
@[simp] theorem decodePort_ptWord_write (rb : Byte) : decodePort (ptWord 0x4#4 rb) = .ok (.write rb) := by
  simp [decodePort, isPortCode]
@[simp] theorem decodePort_ptWord_read (lv : Byte) : decodePort (ptWord 0x5#4 lv) = .ok (.read lv) := by
  simp [decodePort, isPortCode]
@[simp] theorem decodePort_ptWord_closePort : decodePort (ptWord 0x6#4 0x00#8) = .ok .closePort := rfl

theorem isPortCode_iff (c : OpCode) : isPortCode c = true ↔ 1 ≤ c.toNat ∧ c.toNat ≤ 6 := by
  simp [isPortCode]

theorem isPortCode_eq_false_iff (c : OpCode) : isPortCode c = false ↔ c.toNat < 1 ∨ 6 < c.toNat := by
  rw [← Bool.not_eq_true, isPortCode_iff]
  omega

theorem decodePort_of_not_isPortCode {w : OpWord} (hc : isPortCode (opField w) = false) :
    decodePort w = .error .notPortCode := if_pos hc

theorem decodePort_of_zeroField_ne {w : OpWord} (hc : isPortCode (opField w) = true) (hz : zeroField w ≠ 0) :
    decodePort w = .error .recordBitsSet := (if_neg (by simp [hc])).trans (if_pos hz)

/-- The codes of OPEN, RESET and CLOSE, whose records carry no data (R80). -/
def IsDatalessCode (c : OpCode) : Prop := c = 0x1#4 ∨ c = 0x2#4 ∨ c = 0x6#4

theorem decodePort_of_dataField_ne {w : OpWord} (hc : IsDatalessCode (opField w)) (hz : zeroField w = 0)
    (hd : dataField w ≠ 0) : decodePort w = .error .recordDataSet := by
  obtain hc | hc | hc := hc <;> simpa [decodePort, isPortCode, hc, hz] using hd

/-- A word whose bits 11 to 8 are zero is the PT word of its two other fields. -/
theorem eq_ptWord_of_fields {w : OpWord} {c : OpCode} {d : Byte} (hc : opField w = c) (hz : zeroField w = 0)
    (hd : dataField w = d) : w = ptWord c d := by
  rw [← hc, ← hd, ptWord_fields w hz]

/-- The operations that have a port word of their own (R80). -/
def IsPortOp : Instr → Prop
  | .openPort | .resetPort | .setMode _ | .write _ | .read _ | .closePort => True
  | _ => False

theorem decodePort_encode (p : Pins) (x : Bits96) {i : Instr} (hi : IsPortOp i) :
    decodePort (encode p x i).word = .ok i := by
  cases i with
  | openPort => exact decodePort_ptWord_openPort
  | resetPort => exact decodePort_ptWord_resetPort
  | setMode mask => exact decodePort_ptWord_setMode mask
  | write rb => exact decodePort_ptWord_write rb
  | read lv => exact decodePort_ptWord_read lv
  | closePort => exact decodePort_ptWord_closePort
  | _ => exact hi.elim

/-- The only port code left once the others are excluded is that of CLOSE. -/
theorem opField_eq_close {c : OpCode} (hc : isPortCode c = true) (h1 : c ≠ 0x1#4) (h2 : c ≠ 0x2#4)
    (h3 : c ≠ 0x3#4) (h4 : c ≠ 0x4#4) (h5 : c ≠ 0x5#4) : c = 0x6#4 := by
  rw [isPortCode_iff] at hc
  bv_omega

/-- What the port decoder accepts is the word of the operation it answers (R80). -/
theorem encode_of_decodePort (p : Pins) (x : Bits96) {w : OpWord} {i : Instr} (h : decodePort w = .ok i) :
    encode p x i = bareWord w := by
  unfold decodePort at h
  split_ifs at h with hc hz h3 h4 h5 hd h1 h2 <;> obtain rfl := Except.ok.inj h <;>
    rw [ne_eq, not_not] at hz
  · rw [eq_ptWord_of_fields h3 hz rfl]; simp [encode]
  · rw [eq_ptWord_of_fields h4 hz rfl]; simp [encode]
  · rw [eq_ptWord_of_fields h5 hz rfl]; simp [encode]
  · rw [eq_ptWord_of_fields h1 hz (not_not.1 hd)]; rfl
  · rw [eq_ptWord_of_fields h2 hz (not_not.1 hd)]; rfl
  · have h6 := opField_eq_close (Bool.not_eq_false _ ▸ hc) h1 h2 h3 h4 h5
    rw [eq_ptWord_of_fields h6 hz (not_not.1 hd)]; rfl

/-- Settles O57: the refusals clause by clause, and every other word is a PT word of its fields. -/
theorem portDecoderRefusesEveryOtherWord : Obligations.PortDecoderRefusesEveryOtherWord := by
  intro w
  refine ⟨fun hc => decodePort_of_not_isPortCode ((isPortCode_eq_false_iff _).2 hc),
    fun hlow hhigh => decodePort_of_zeroField_ne ((isPortCode_iff _).2 ⟨hlow, hhigh⟩),
    decodePort_of_dataField_ne, fun hc hz hd => ?_, fun hc hz => ?_⟩
  · obtain hc | hc | hc := hc <;> rw [eq_ptWord_of_fields hc hz hd]
    · exact ⟨_, decodePort_ptWord_openPort⟩
    · exact ⟨_, decodePort_ptWord_resetPort⟩
    · exact ⟨_, decodePort_ptWord_closePort⟩
  · obtain hc | hc | hc := hc <;> rw [eq_ptWord_of_fields hc hz rfl]
    · exact ⟨_, decodePort_ptWord_setMode _⟩
    · exact ⟨_, decodePort_ptWord_write _⟩
    · exact ⟨_, decodePort_ptWord_read _⟩

/-! ### The host decoder (R78, R81, R83) -/

section
variable {w : OpWord} (a b : Bits96) (log : LogTarget)

theorem decodeHost_of_run (hc : opField w = 0x8#4) : decodeHost w a b log = .ok (decodeRun w a log) := if_pos hc

theorem decodeHost_of_encode (hc : opField w = 0x9#4) : decodeHost w a b log = .ok (decodeEncode w) := by
  simp [decodeHost, hc]

theorem decodeHost_of_verify (hc : opField w = 0xA#4) (harg : argField w = 0) :
    decodeHost w a b log = .ok (.verify a b) := by
  simp [decodeHost, hc, harg]

theorem decodeHost_of_verify_bits (hc : opField w = 0xA#4) (harg : argField w ≠ 0) :
    decodeHost w a b log = .error .verifyBitsSet := by
  simpa [decodeHost, hc] using harg

/-- A code 1 to 6 is none of the host's. -/
theorem decodeHost_of_isPortCode (hc : isPortCode (opField w) = true) :
    decodeHost w a b log = .error .portCodeOnHost := by
  have hle := ((isPortCode_iff _).1 hc).2
  have hrun : opField w ≠ 0x8#4 := by bv_omega
  have hencode : opField w ≠ 0x9#4 := by bv_omega
  have hverify : opField w ≠ 0xA#4 := by bv_omega
  simp [decodeHost, hc, hrun, hencode, hverify]

/-- The codes 0x0, 0x7 and 0xB to 0xF are reserved (R83). -/
theorem decodeHost_of_reserved (hc : opField w = 0x0#4 ∨ opField w = 0x7#4 ∨ 0xB ≤ (opField w).toNat) :
    decodeHost w a b log = .error .reservedCode := by
  have hrun : opField w ≠ 0x8#4 := by bv_omega
  have hencode : opField w ≠ 0x9#4 := by bv_omega
  have hverify : opField w ≠ 0xA#4 := by bv_omega
  have hport : isPortCode (opField w) = false := by
    rw [isPortCode_eq_false_iff]
    bv_omega
  simp [decodeHost, hport, hrun, hencode, hverify]

end

/-- Everything the host decoder accepts. -/
theorem decodeHost_ok_cases {w : OpWord} {a b : Bits96} {log : LogTarget} {i : Instr}
    (h : decodeHost w a b log = .ok i) :
    (opField w = 0x8#4 ∧ i = decodeRun w a log) ∨ (opField w = 0x9#4 ∧ i = decodeEncode w) ∨
      (opField w = 0xA#4 ∧ argField w = 0 ∧ i = .verify a b) := by
  unfold decodeHost at h
  split_ifs at h with hrun hencode hverify harg <;> obtain rfl := Except.ok.inj h
  · exact .inl ⟨hrun, rfl⟩
  · exact .inr (.inl ⟨hencode, rfl⟩)
  · exact .inr (.inr ⟨hverify, harg, rfl⟩)

theorem opField_append_argField (w : OpWord) : opField w ++ argField w = w := append_extractLsb (n := 4) (m := 12) w

theorem argField_append (c : OpCode) (arg : BitVec 12) : argField (c ++ arg) = arg := extract_low c arg

theorem decodeRun_encode (p : Pins) (x : Bits96) (cs ck dout din : Pin) (pattern : Bits96) (log : LogTarget) :
    decodeRun (encode p x (.run cs ck dout din pattern log)).word pattern log = .run cs ck dout din pattern log := by
  have harg : argField (encode p x (.run cs ck dout din pattern log)).word = packPins ⟨cs, ck, dout, din⟩ :=
    argField_append _ _
  rw [decodeRun, harg, unpackPins_packPins]

/-- A RUN word is that of the RUN it decodes to: its code, and PINCFG (R78). -/
theorem encode_decodeRun (p : Pins) (x : Bits96) {w : OpWord} (hc : opField w = 0x8#4) (pattern : Bits96)
    (log : LogTarget) :
    encode p x (decodeRun w pattern log) = { word := w, operand0 := pattern, operand1 := 0, log := log } := by
  have hword : 0x8#4 ++ packPins (unpackPins (argField w)) = w := by
    rw [packPins_unpackPins, ← hc, opField_append_argField]
  exact congrArg (Encoded.mk · pattern 0 log) hword

/-- A bit of a concatenation that lies in the high part. -/
theorem getLsbD_append_high {n m : Nat} (a : BitVec n) (b : BitVec m) (s : Nat) :
    (a ++ b).getLsbD (m + s) = a.getLsbD s := by
  simp [BitVec.getLsbD_append]

theorem getLsbD_append_ofBool {n : Nat} (a : BitVec n) (v : Bool) : (a ++ BitVec.ofBool v).getLsbD 0 = v := by
  rw [BitVec.getLsbD_append, if_pos Nat.zero_lt_one, BitVec.getLsbD_ofBool]
  simp

theorem decodeEncode_encode (p : Pins) (x : Bits96) (cs ck dout : Pin) (a b c : Bool) :
    decodeEncode (encode p x (.encode cs ck dout a b c)).word = .encode cs ck dout a b c := by
  simp only [encode, bareWord, decodeEncode, Instr.encode.injEq]
  refine ⟨extract_low _ _, ?_, ?_, ?_, ?_, ?_⟩
  · exact (extract_high _ _ 0 _).trans (extract_low _ _)
  · exact (extract_high _ _ 3 _).trans ((extract_high _ _ 0 _).trans (extract_low _ _))
  · exact (getLsbD_append_high _ _ 6).trans ((getLsbD_append_high _ _ 3).trans ((getLsbD_append_high _ _ 0).trans
      (getLsbD_append_ofBool _ _)))
  · exact (getLsbD_append_high _ _ 7).trans ((getLsbD_append_high _ _ 4).trans ((getLsbD_append_high _ _ 1).trans
      ((getLsbD_append_high _ _ 0).trans (getLsbD_append_ofBool _ _))))
  · exact (getLsbD_append_high _ _ 8).trans ((getLsbD_append_high _ _ 5).trans ((getLsbD_append_high _ _ 2).trans
      ((getLsbD_append_high _ _ 1).trans ((getLsbD_append_high _ _ 0).trans (getLsbD_append_ofBool _ _)))))

theorem ofBool_getLsbD {n : Nat} (w : BitVec n) (k : Nat) : BitVec.ofBool (w.getLsbD k) = w.extractLsb' k 1 := by
  apply BitVec.eq_of_getLsbD_eq
  intro j hj
  obtain rfl : j = 0 := by omega
  simp

/-- An ENCODE word is that of the ENCODE it decodes to: its fields, from the highest to the lowest, are the word. -/
theorem encode_decodeEncode (p : Pins) (x : Bits96) {w : OpWord} (hc : opField w = 0x9#4) :
    encode p x (decodeEncode w) = bareWord w := by
  simp only [decodeEncode, encode, ofBool_getLsbD, ← hc, opField]
  simp only [BitVec.extractLsb'_append_extractLsb'_eq_extractLsb', extract_all]

theorem decodeHost_encode (p : Pins) (x : Bits96) {i : Instr} (hi : IsHostOp i) :
    decodeHost (encode p x i).word (encode p x i).operand0 (encode p x i).operand1 (encode p x i).log = .ok i := by
  cases i with
  | run cs ck dout din pattern log =>
    exact (decodeHost_of_run _ _ _ (Laws.OpcodeField.run cs ck dout din pattern log p x)).trans
      (congrArg _ (decodeRun_encode p x cs ck dout din pattern log))
  | encode cs ck dout a b c =>
    exact (decodeHost_of_encode _ _ _ (Laws.OpcodeField.encode cs ck dout a b c p x)).trans
      (congrArg _ (decodeEncode_encode p x cs ck dout a b c))
  | verify written read => exact decodeHost_of_verify written read _ (w := 0xA000#16) (by decide) (by decide)
  | _ => exact hi.elim

/-! ### Both interfaces -/

/-- Every word that the port decoder accepts has a port operation's code, so it is read as a port operation (R79). -/
theorem decodeWord_of_decodePort_ok {e : Encoded} {i : Instr} (h : decodePort e.word = .ok i) :
    decodeWord e = .ok i := by
  have hc : isPortCode (opField e.word) = true := by
    by_contra hc
    rw [decodePort_of_not_isPortCode (Bool.not_eq_true _ ▸ hc)] at h
    cases h
  exact (if_pos hc).trans h

/-- No word that the host decoder accepts has a port operation's code, so it is read as a host command (R79). -/
theorem decodeWord_of_decodeHost_ok {e : Encoded} {i : Instr}
    (h : decodeHost e.word e.operand0 e.operand1 e.log = .ok i) : decodeWord e = .ok i := by
  have hc : ¬ isPortCode (opField e.word) = true := by
    intro hc
    rw [decodeHost_of_isPortCode _ _ _ hc] at h
    cases h
  exact (if_neg hc).trans h

/-- Settles O2, interface by interface. -/
theorem decodeInvertsEncode : Obligations.DecodeInvertsEncode := by
  have hport (p : Pins) (x : Bits96) {i : Instr} (hi : IsPortOp i) : decodeWord (encode p x i) = .ok i :=
    decodeWord_of_decodePort_ok (decodePort_encode p x hi)
  rintro p x i (hi | rfl | rfl | ⟨mask, rfl⟩ | ⟨rb, rfl⟩ | ⟨lv, rfl⟩ | rfl)
  · exact decodeWord_of_decodeHost_ok (decodeHost_encode p x hi)
  all_goals exact hport p x trivial

/-- Settles O56, interface by interface. -/
theorem encodeInvertsDecode : Obligations.EncodeInvertsDecode := by
  refine ⟨fun p x w i h => encode_of_decodePort p x h, fun p x w a b log i h => ?_⟩
  obtain ⟨hc, rfl⟩ | ⟨hc, rfl⟩ | ⟨hc, harg, rfl⟩ := decodeHost_ok_cases h
  · simp [encode_decodeRun p x hc, hc, operandCount]
  · simp [encode_decodeEncode p x hc, hc, operandCount, bareWord]
  · have hword : 0xA000#16 = w := by
      rw [← opField_append_argField w, hc, harg]
      rfl
    simp [encode, hword, hc]

/-- Settles O1, by running the decoders on the spec's words. -/
theorem decodesTheSpecsWords : Obligations.DecodesTheSpecsWords :=
  ⟨rfl, rfl, rfl, rfl, rfl, rfl, rfl, rfl, rfl, rfl⟩

/-! ### Records at their positions (R160, R161, R171) -/

theorem decodePosition_pass (din : Pin) (m : Fin 2) {r : Nat} (hr : r < 388) :
    decodePosition din (passBase m + r) = some (passStep m r) := by
  have hm := m.isLt
  have hpass : Fin.ofNat 2 ((passBase m + r - 5) / 388) = m := by
    apply Fin.ext
    rw [Fin.val_ofNat, passBase]
    omega
  have hoffset : (passBase m + r - 5) % 388 = r := by rw [passBase]; omega
  have hbounds : 5 ≤ passBase m + r ∧ passBase m + r < 781 := by rw [passBase]; omega
  unfold decodePosition
  rw [if_neg (by omega), if_neg (by omega), if_neg (by omega), if_neg (by omega), if_neg (by omega),
    if_neg (by omega), if_pos hbounds.2, hpass, hoffset]

theorem passStep_iteration (m : Fin 2) (b : Fin 96) {j : Nat} (hj : j < 4) :
    passStep m (1 + 4 * b.val + j) = bitStep m b j := by
  have hb := b.isLt
  have hindex : Fin.ofNat 96 ((1 + 4 * b.val + j - 1) / 4) = b := by
    apply Fin.ext
    rw [Fin.val_ofNat]
    omega
  have hphase : (1 + 4 * b.val + j - 1) % 4 = j := by omega
  rw [passStep, if_neg (by omega), if_pos (by omega), hindex, hphase]

/-- R161 names at an operation's position that operation: the converse of `position_of_decodePosition`. -/
theorem decodePosition_of_position {din : Pin} {i : Instr} {k : Nat} (hk : position i = some k)
    (hmask : ∀ mask, i = .setMode mask → mask = ioMask din) : decodePosition din k = some i := by
  have hiteration (m : Fin 2) (b : Fin 96) (j : Nat) (hj : j < 4) :
      decodePosition din (passBase m + (1 + 4 * b.val + j)) = some (bitStep m b j) := by
    rw [decodePosition_pass din m (by omega), passStep_iteration m b hj]
  cases i with
  | run | encode | verify | write | read => cases hk
  | openPort | resetPort | wakeLo | wakeHi | closePort => cases hk; rfl
  | setMode mask => cases hk; rw [hmask mask rfl]; rfl
  | passStart m => cases hk; exact decodePosition_pass din m (r := 0) (by omega)
  | present m b => cases hk; rw [Nat.add_assoc]; exact hiteration m b 0 (by omega)
  | rise m b =>
    obtain rfl : passBase m + (1 + 4 * b.val + 1) = k := by rw [← Option.some.inj hk]; omega
    exact hiteration m b 1 (by omega)
  | fall m b =>
    obtain rfl : passBase m + (1 + 4 * b.val + 2) = k := by rw [← Option.some.inj hk]; omega
    exact hiteration m b 2 (by omega)
  | sample m b =>
    obtain rfl : passBase m + (1 + 4 * b.val + 3) = k := by rw [← Option.some.inj hk]; omega
    exact hiteration m b 3 (by omega)
  | latchHi1 m | latchLo m | latchHi2 m => cases hk; exact decodePosition_pass din m (by omega)

theorem decodePosition_eq_none (din : Pin) {k : Nat} (hk : 782 ≤ k) : decodePosition din k = none := by
  unfold decodePosition
  split_ifs
  case neg => rfl
  all_goals omega

/-- The word of an operation that has a position is a port operation's. -/
theorem exists_decodePort_of_position (p : Pins) (x : Bits96) {i : Instr} {k : Nat} (hk : position i = some k) :
    ∃ op, decodePort (encode p x i).word = .ok op := by
  cases i with
  | run | encode | verify | write | read => cases hk
  | openPort | resetPort | setMode | closePort => exact ⟨_, decodePort_encode p x trivial⟩
  | sample => exact ⟨_, decodePort_ptWord_read _⟩
  | _ => exact ⟨_, decodePort_ptWord_write _⟩

section
variable {p : Pins} {x : Bits96} {k : Nat} {w : OpWord} {i st : Instr}

theorem decodeRecordAt_of_error {e : Reject} (hw : decodePort w = .error e) : decodeRecordAt p x k w = .error e := by
  simp [decodeRecordAt, hw]

theorem decodeRecordAt_of_no_step (hw : decodePort w = .ok i) (hk : decodePosition p.din k = none) :
    decodeRecordAt p x k w = .error .notThisStep := by
  simp [decodeRecordAt, hw, hk]

theorem decodeRecordAt_of_read_at_sample {lv : Byte} {m : Fin 2} {b : Fin 96} (hw : decodePort w = .ok (.read lv))
    (hk : decodePosition p.din k = some (.sample m b)) : decodeRecordAt p x k w = .ok (.sample m b) := by
  simp [decodeRecordAt, hw, hk]

/-- The word that the step at the position issues is that step. -/
theorem decodeRecordAt_of_word_eq (hw : decodePort w = .ok i) (hk : decodePosition p.din k = some st)
    (heq : w = (encode p x st).word) : decodeRecordAt p x k w = .ok st := by
  unfold decodeRecordAt
  rw [hw, hk]
  split <;> simp_all

/-- Any other word is refused, unless it is a READ at the position of a SAMPLE. -/
theorem decodeRecordAt_of_word_ne (hw : decodePort w = .ok i) (hk : decodePosition p.din k = some st)
    (hne : w ≠ (encode p x st).word) (hsample : ¬ (IsSamplePosition k ∧ opField w = 0x5#4)) :
    decodeRecordAt p x k w = .error .notThisStep := by
  unfold decodeRecordAt
  rw [hw, hk]
  split
  · contradiction
  · contradiction
  · next lv m b hread hstep =>
    cases hread
    cases hstep
    have hop : opField w = 0x5#4 := by
      show opField (bareWord w).word = _
      rw [← encode_of_decodePort p x hw]
      exact Laws.OpcodeField.read lv p x
    exact absurd ⟨⟨m, b, (Option.some.inj (position_of_decodePosition hk)).symm⟩, hop⟩ hsample
  · next hstep =>
    cases hstep
    exact if_neg hne
end

/-- Settles O3: what a record is depends on what its word and its position decode to, each on its own. -/
theorem recordAtItsPositionDecodesToTheStep : Obligations.RecordAtItsPositionDecodesToTheStep := by
  refine ⟨fun p x i k hk hmask => ?_, fun p x m b lv => ?_, fun p x k w i st hw hk => decodeRecordAt_of_word_ne hw hk,
    fun p x k w i hw hk => decodeRecordAt_of_no_step hw (decodePosition_eq_none _ hk),
    fun p x k w e => decodeRecordAt_of_error⟩
  · obtain ⟨op, hop⟩ := exists_decodePort_of_position p x hk
    exact decodeRecordAt_of_word_eq hop (decodePosition_of_position hk hmask) rfl
  · have hk : decodePosition p.din (samplePosition m b) = some (.sample m b) :=
      decodePosition_of_position rfl (by rintro _ ⟨⟩)
    exact decodeRecordAt_of_read_at_sample (decodePort_ptWord_read lv) hk

/-! ### The register byte and the mask (R70 to R74) -/

theorem eq_of_bitAt {b b' : Byte} (h : ∀ q : Pin, bitAt b q = bitAt b' q) : b = b' := by
  apply BitVec.eq_of_getLsbD_eq
  intro i hi
  simpa [bitAt, Nat.mod_eq_of_lt hi] using h (BitVec.ofNat 3 i)

/-- With a legal pin assignment each level stands at its pin. -/
theorem bitAt_enc_pins {p : Pins} (h : p.legal = true) (cs ck dout : Bool) :
    bitAt (p.enc cs ck dout) p.cs = cs ∧ bitAt (p.enc cs ck dout) p.ck = ck ∧
      bitAt (p.enc cs ck dout) p.dout = dout := by
  obtain ⟨hcsck, hcsdout, -, hckdout, -, -⟩ := (distinct4_iff _ _ _ _).1 h
  simp [bitAt_enc, hcsck, hcsdout, hckdout]

theorem bitAt_enc_of_ne (p : Pins) (cs ck dout : Bool) {q : Pin} (hcs : q ≠ p.cs) (hck : q ≠ p.ck)
    (hdout : q ≠ p.dout) :
    bitAt (p.enc cs ck dout) q = false := by
  simp [bitAt_enc, hcs, hck, hdout]

/-- Settles O58: the three levels stand at their pins, and DIN is one of the other bits. -/
theorem registerByteHoldsEachLevelAtItsPin : Obligations.RegisterByteHoldsEachLevelAtItsPin := by
  intro p cs ck dout h
  obtain ⟨hcs, hck, hdout⟩ := bitAt_enc_pins h cs ck dout
  obtain ⟨-, -, hcsdin, -, hckdin, hdoutdin⟩ := (distinct4_iff _ _ _ _).1 h
  exact ⟨hcs, hck, hdout, bitAt_enc_of_ne p cs ck dout hcsdin.symm hckdin.symm hdoutdin.symm,
    fun q => bitAt_enc_of_ne p cs ck dout⟩

/-- Different level triples give different bytes (R73). -/
theorem enc_injective {p : Pins} (h : p.legal = true) {a b c a' b' c' : Bool} (heq : p.enc a b c = p.enc a' b' c') :
    a = a' ∧ b = b' ∧ c = c' := by
  obtain ⟨hcs, hck, hdout⟩ := bitAt_enc_pins h a b c
  obtain ⟨hcs', hck', hdout'⟩ := bitAt_enc_pins h a' b' c'
  rw [heq] at hcs hck hdout
  exact ⟨hcs.symm.trans hcs', hck.symm.trans hck', hdout.symm.trans hdout'⟩

/-- No step of the schedule has CS and CK high together (R150 to R159). -/
theorem enc_of_writtenByte {ss : Session} {i : Instr} {k : Nat} {b : Byte} (hk : position i = some k)
    (hb : writtenByte ss i = some b) : ∃ cs ck dout, (cs && ck) = false ∧ b = ss.pins.enc cs ck dout := by
  cases i with
  | run | encode | verify | write | read => cases hk
  | openPort | resetPort | setMode | closePort | sample => cases hb
  | _ => cases hb; exact ⟨_, _, _, rfl, rfl⟩

theorem enc_of_write_mem_referenceListing {p : Pins} {x : Bits96} {b : Byte} (h : .write b ∈ referenceListing p x) :
    ∃ cs ck dout, (cs && ck) = false ∧ b = p.enc cs ck dout := by
  obtain ⟨ss, rfl, rfl⟩ : ∃ ss : Session, ss.pins = p ∧ ss.pattern = x := ⟨freshSession p x 0, rfl, rfl⟩
  obtain ⟨k, hk⟩ := List.mem_iff_getElem?.1 h
  obtain ⟨i, hi, hb⟩ := exists_step_of_referenceListing_write hk
  exact enc_of_writtenByte hi hb

/-- Settles O47. -/
theorem scheduleWritesOnlySixBytes : Obligations.ScheduleWritesOnlySixBytes := by
  intro p x hlegal
  refine ⟨fun a b c a' b' c' => enc_injective hlegal, fun rb hrb => ?_⟩
  obtain ⟨cs, ck, dout, hlow, rfl⟩ := enc_of_write_mem_referenceListing hrb
  have hnever (d : Bool) : p.enc cs ck dout ≠ p.enc true true d := by
    intro heq
    obtain ⟨rfl, rfl, -⟩ := enc_injective hlegal heq
    cases hlow
  refine ⟨?_, hnever false, hnever true⟩
  cases cs with
  | false => cases ck <;> cases dout <;> simp
  | true =>
    obtain rfl : ck = false := hlow
    cases dout <;> simp

/-- Settles O5. -/
theorem maskMakesEveryPinButDinAnOutput : Obligations.MaskMakesEveryPinButDinAnOutput := by
  intro din q
  rw [bitAt_ioMask, ← decide_not]

/-- One term of R71: the zero-extended level, shifted to its pin. -/
def levelTerm (p : Pin) (v : Bool) : Byte := (BitVec.ofBool v).setWidth 8 <<< p.toNat

theorem bitAt_levelTerm (p q : Pin) (v : Bool) : bitAt (levelTerm p v) q = (decide (q = p) && v) := by
  cases v with
  | false => simp [levelTerm, bitAt]
  | true =>
    rw [show levelTerm p true = 1#8 <<< p.toNat from rfl, bitAt, getLsbD_one_shiftLeft _ _ p.isLt]
    simp [BitVec.toNat_inj]

@[simp] theorem bitAt_or (b b' : Byte) (q : Pin) : bitAt (b ||| b') q = (bitAt b q || bitAt b' q) := BitVec.getLsbD_or
@[simp] theorem bitAt_and (b b' : Byte) (q : Pin) : bitAt (b &&& b') q = (bitAt b q && bitAt b' q) := BitVec.getLsbD_and
@[simp] theorem bitAt_zero (q : Pin) : bitAt 0#8 q = false := BitVec.getLsbD_zero

theorem distinct3_iff (cs ck dout : Pin) : distinct3 cs ck dout = true ↔ cs ≠ ck ∧ cs ≠ dout ∧ ck ≠ dout := by
  simp [distinct3, and_assoc]

/-- Settles O6: the terms of distinct pins have no bit in common, so that their sum is their OR. -/
theorem registerByteIsTheOrOfItsTerms : Obligations.RegisterByteIsTheOrOfItsTerms := by
  intro cs ck dout a b c h
  obtain ⟨hcsck, hcsdout, hckdout⟩ := (distinct3_iff _ _ _).1 h
  have hor : encodeByte cs ck dout a b c = levelTerm cs a ||| levelTerm ck b ||| levelTerm dout c := by
    apply eq_of_bitAt
    intro q
    rw [bitAt_encodeByte]
    simp only [bitAt_or, bitAt_levelTerm]
    split_ifs with hq hq hq
    · simp [hq, hcsdout.symm, hckdout.symm]
    · simp [hq, hcsck.symm, hckdout]
    · simp [hq, hcsck, hcsdout]
    · simp [*]
  have hfirst : levelTerm cs a &&& levelTerm ck b = 0#8 := by
    apply eq_of_bitAt
    intro q
    by_cases hq : q = cs <;> simp [bitAt_levelTerm, hq, hcsck]
  have hlast : (levelTerm cs a ||| levelTerm ck b) &&& levelTerm dout c = 0#8 := by
    apply eq_of_bitAt
    intro q
    by_cases hq : q = dout <;> simp [bitAt_levelTerm, hq, hcsdout.symm, hckdout.symm]
  refine ⟨hor, ?_⟩
  show _ = levelTerm cs a + levelTerm ck b + levelTerm dout c
  rw [BitVec.add_eq_or_of_and_eq_zero _ _ hfirst, BitVec.add_eq_or_of_and_eq_zero _ _ hlast, hor]

/-! ### Refusals on the host interface (R83, R84, R210 to R213) -/

/-- Settles O9. -/
theorem collidingPinsAreRefused : Obligations.CollidingPinsAreRefused := by
  refine ⟨fun cs ck dout din x log s hidle hpins => ?_, fun cs ck dout a b c s hpins => ?_⟩
  · refine exec_run_of_collision hidle ?_ x log
    rw [← Bool.not_eq_true, distinct4_iff]
    tauto
  · have hcollide : ¬ distinct3 cs ck dout = true := by
      rw [distinct3_iff]
      tauto
    rw [exec_encode, if_neg hcollide]
    rfl

section
variable {s : State} {r : HostRequest} {rest : List HostRequest}
  (hw : s.portWord = none) (hh : s.hostIn = r :: rest) (h0 : r.wait = 0)
include hw hh h0

theorem step_of_due_ok {i : Instr} (hdecode : decodeHost r.word r.operand0 r.operand1 r.log = .ok i) :
    step s = exec i { s with hostIn := rest } :=
  step_of_perform (by rw [fetch_of_due hw hh h0, serveHost, hdecode])

theorem step_of_due_portCodeOnHost
    (hdecode : decodeHost r.word r.operand0 r.operand1 r.log = .error .portCodeOnHost) :
    step s = .refused .portCodeOnHost :=
  step_of_act (by rw [fetch_of_due hw hh h0, serveHost, hdecode])

theorem step_of_due_error {e : Reject} (hdecode : decodeHost r.word r.operand0 r.operand1 r.log = .error e)
    (he : e ≠ .portCodeOnHost) :
    step s = .next { s with hostIn := rest, replies := s.replies ++ [.refused .reservedCode] } := by
  have hf : fetch s = .act (.next (State.refuse { s with hostIn := rest } .reservedCode)) := by
    rw [fetch_of_due hw hh h0, serveHost, hdecode]
    split <;> simp_all
  exact step_of_act hf

theorem step_of_due_run (hc : opField r.word = 0x8#4) :
    step s = exec (decodeRun r.word r.operand0 r.log) { s with hostIn := rest } :=
  step_of_due_ok hw hh h0 (decodeHost_of_run _ _ _ hc)

end

/-- Settles O33. -/
theorem portCodeOnTheHostInterfaceStops : Obligations.PortCodeOnTheHostInterfaceStops := by
  intro s r rest hw hh h0 hlow hhigh
  exact step_of_due_portCodeOnHost hw hh h0 (decodeHost_of_isPortCode _ _ _ ((isPortCode_iff _).2 ⟨hlow, hhigh⟩))

/-- Settles O12: the word is decoded first, and what decodes to a RUN meets RUN's own refusals. -/
theorem refusalsComeInOrder : Obligations.RefusalsComeInOrder := by
  refine ⟨fun s r rest hw hh h0 => ⟨fun hc => ?_, fun hc hp => ?_, fun hc hp hpins => ?_⟩, rfl, rfl, rfl⟩
  · obtain hc | hc | hc | ⟨hc, harg⟩ := hc
    · exact step_of_due_error hw hh h0 (decodeHost_of_reserved _ _ _ (.inl hc)) (by decide)
    · exact step_of_due_error hw hh h0 (decodeHost_of_reserved _ _ _ (.inr (.inl hc))) (by decide)
    · exact step_of_due_error hw hh h0 (decodeHost_of_reserved _ _ _ (.inr (.inr hc))) (by decide)
    · exact step_of_due_error hw hh h0 (decodeHost_of_verify_bits _ _ _ hc harg) (by decide)
  · exact (step_of_due_run hw hh h0 hc).trans (exec_run_of_busy (s := { s with hostIn := rest }) hp _ _ _ _ _ _)
  · exact (step_of_due_run hw hh h0 hc).trans
      (exec_run_of_collision (s := { s with hostIn := rest }) hp hpins _ _)

/-! ### SETMODE (R116) -/

/-- The whole state after an operation that leaves the phase `SCHED`, in terms of the state before the answer. -/
theorem answered_sched_eq {s s1 : State} {ss : Session} {a : PortAnswer} (hr : Running s ss) (ha : Answers s a s1)
    (op : PortOp) (ss' : Session) :
    s1.answered op ss a ss' .sched = { s1 with
      session := some ss'
      port := portAfter op a s.port
      trace := s.trace ++ [recordOf op ss a s.settleDue]
      diag := s.diag ++ errorEvents op.errorKind ss.log ss.k a.status
      settleDue := settleAfter op } := by
  obtain ⟨hphase, -, hport, htrace, hdiag, -, -, -, hsettle⟩ := answers_frame ha
  rw [State.answered, raised_eq, hport, htrace, hdiag, hsettle, hphase, hr.1]

/-- The record of a SETMODE (R76, R80). -/
theorem recordOf_setMode (mask : Byte) (ss : Session) (a : PortAnswer) (settle : Nat) :
    recordOf (.setMode mask .asyncBitbang) ss a settle =
      { k := ss.k, op := .setMode mask .asyncBitbang, handle := ss.handle, word := 0x30#8 ++ mask, status := a.status,
        bytesWritten := none, mode := some Config.modeAsyncBitbang, settle := settle } := by
  have hword : ptWord 0x3#4 mask = 0x30#8 ++ mask := rfl
  rw [← hword]
  rfl

/-- Settles O19. -/
theorem setModeCompletes : Obligations.SetModeCompletes := by
  intro mask s s1 ss a hr ha
  rw [exec_eq_transact id, transact_of_answers hr ha]
  rw [← recordOf_setMode]
  exact congrArg _ (answered_sched_eq hr ha _ _)

end Sys2Proof.Machine

/-! ## The pin-state encoder (spec/40_encoder.md)

ENCODE's byte is three writes of a bit into 0x00. Where its pins are distinct each write finds a 0, so that the number
of set bits is the sum of the levels (`setBits_setBit`); the bound of R103 follows from that number alone. -/

namespace Sys2Proof.Machine

/-! ### Bytes by their set bits -/

/-- The number of set bits of a byte, as R103 counts them. -/
def setBits (b : Byte) : Nat := ((List.finRange 8).filter fun q => b.getLsbD q.val).length

/-- The set bits themselves. -/
def bitsOf (b : Byte) : Finset (Fin 8) := Finset.univ.filter fun q => b.getLsbD q.val

theorem mem_bitsOf (b : Byte) (q : Fin 8) : q ∈ bitsOf b ↔ bitAt b (BitVec.ofFin q) = true := by
  rw [bitsOf, Finset.mem_filter]
  exact and_iff_right (Finset.mem_univ q)

theorem setBits_eq_card (b : Byte) : setBits b = (bitsOf b).card := by
  rw [bitsOf, Finset.card_def, Finset.filter_val, Fin.univ_def, Multiset.filter_coe, Multiset.coe_card, setBits]
  simp only [Bool.decide_eq_true]

/-- Writing a level to a bit that was 0 adds that level to the number of set bits. -/
theorem setBits_setBit {b : Byte} {p : Pin} (h : bitAt b p = false) (v : Bool) :
    setBits (setBit b p v) = setBits b + v.toNat := by
  cases v with
  | false =>
    have hsame : setBit b p false = b := by
      apply eq_of_bitAt
      intro q
      by_cases hq : q = p <;> simp [bitAt_setBit, hq, h]
    rw [hsame, Bool.toNat_false, Nat.add_zero]
  | true =>
    have hnew : p.toFin ∉ bitsOf b := by simp [mem_bitsOf, h]
    have hinsert : bitsOf (setBit b p true) = insert p.toFin (bitsOf b) := by
      ext q
      have hpin : BitVec.ofFin q = p ↔ q = p.toFin := ⟨fun heq => heq ▸ rfl, fun heq => heq ▸ rfl⟩
      by_cases hq : q = p.toFin <;> simp [mem_bitsOf, bitAt_setBit, hpin, hq]
    rw [setBits_eq_card, hinsert, Finset.card_insert_of_notMem hnew, setBits_eq_card, Bool.toNat_true]

/-- 0xE0 holds the three bits of most weight, so that a byte above it has a fourth. -/
theorem toNat_le_of_setBits_le_three : ∀ b : Byte, setBits b ≤ 3 → b.toNat ≤ 0xE0 := by decide

theorem bitAt_0xE0 : ∀ q : Pin, bitAt 0xE0#8 q = decide (5 ≤ q.toNat) := by decide

/-! ### The register byte (R100, R103, R104) -/

section
variable {cs ck dout : Pin} (h : distinct3 cs ck dout = true) (a b c : Bool)
include h

theorem bitAt_encodeByte_pins :
    bitAt (encodeByte cs ck dout a b c) cs = a ∧ bitAt (encodeByte cs ck dout a b c) ck = b ∧
      bitAt (encodeByte cs ck dout a b c) dout = c := by
  obtain ⟨hcsck, hcsdout, hckdout⟩ := (distinct3_iff _ _ _).1 h
  simp [bitAt_encodeByte, hcsck, hcsdout, hckdout]

theorem setBits_encodeByte : setBits (encodeByte cs ck dout a b c) = a.toNat + b.toNat + c.toNat := by
  obtain ⟨hcsck, hcsdout, hckdout⟩ := (distinct3_iff _ _ _).1 h
  have hck : bitAt (setBit 0#8 cs a) ck = false := by simp [bitAt_setBit, hcsck.symm]
  have hdout : bitAt (setBit (setBit 0#8 cs a) ck b) dout = false := by
    simp [bitAt_setBit, hcsdout.symm, hckdout.symm]
  calc setBits (setBit (setBit (setBit 0#8 cs a) ck b) dout c)
      = setBits (setBit (setBit 0#8 cs a) ck b) + c.toNat := setBits_setBit hdout c
    _ = setBits (setBit 0#8 cs a) + b.toNat + c.toNat := by rw [setBits_setBit hck]
    _ = setBits 0#8 + a.toNat + b.toNat + c.toNat := by rw [setBits_setBit (bitAt_zero cs)]
    _ = a.toNat + b.toNat + c.toNat := by rw [show setBits 0#8 = 0 from rfl, Nat.zero_add]

theorem encodeByte_toNat_le : (encodeByte cs ck dout a b c).toNat ≤ 0xE0 := by
  apply toNat_le_of_setBits_le_three
  rw [setBits_encodeByte h]
  have := a.toNat_le
  have := b.toNat_le
  have := c.toNat_le
  omega

/-- Three distinct pins from 5 up are all the pins from 5 up. -/
theorem eq_pin_of_five_le (hcs : 5 ≤ cs.toNat) (hck : 5 ≤ ck.toNat) (hdout : 5 ≤ dout.toNat) {q : Pin}
    (hq : 5 ≤ q.toNat) : q = cs ∨ q = ck ∨ q = dout := by
  obtain ⟨hcsck, hcsdout, hckdout⟩ := (distinct3_iff _ _ _).1 h
  bv_omega

theorem encodeByte_eq_0xE0_iff :
    encodeByte cs ck dout a b c = 0xE0#8 ↔
      (a = true ∧ b = true ∧ c = true ∧ 5 ≤ cs.toNat ∧ 5 ≤ ck.toNat ∧ 5 ≤ dout.toNat) := by
  constructor
  · intro heq
    have hcount := setBits_encodeByte h a b c
    obtain ⟨hcs, hck, hdout⟩ := bitAt_encodeByte_pins h a b c
    rw [heq, show setBits 0xE0#8 = 3 from rfl] at hcount
    rw [heq, bitAt_0xE0] at hcs hck hdout
    obtain ⟨rfl, rfl, rfl⟩ : a = true ∧ b = true ∧ c = true := by
      simp only [← Bool.toNat_eq_one]
      have := a.toNat_le
      have := b.toNat_le
      have := c.toNat_le
      omega
    exact ⟨rfl, rfl, rfl, of_decide_eq_true hcs, of_decide_eq_true hck, of_decide_eq_true hdout⟩
  · rintro ⟨rfl, rfl, rfl, hcs, hck, hdout⟩
    apply eq_of_bitAt
    intro q
    rw [bitAt_0xE0, bitAt_encodeByte]
    by_cases hq : 5 ≤ q.toNat
    · obtain rfl | rfl | rfl := eq_pin_of_five_le h hcs hck hdout hq <;> simp [hq]
    · have hne {p : Pin} (hp : 5 ≤ p.toNat) : q ≠ p := fun heq => hq (heq ▸ hp)
      simp [hq, hne hcs, hne hck, hne hdout]

end

/-- Settles O8. -/
theorem encodeIsExact : Obligations.EncodeIsExact := by
  intro cs ck dout a b c s h
  obtain ⟨hcs, hck, hdout⟩ := bitAt_encodeByte_pins h a b c
  refine ⟨encodeByte cs ck dout a b c, ?_, hcs, hck, hdout, fun q hqcs hqck hqdout => ?_, setBits_encodeByte h a b c,
    encodeByte_toNat_le h a b c, encodeByte_eq_0xE0_iff h a b c⟩
  · rw [exec_encode, if_pos h]
    rfl
  · simp [bitAt_encodeByte, hqcs, hqck, hqdout]

/-- Settles O7: a low level leaves every bit 0, and DIN is none of the three pins written. -/
theorem registerByteCornerCases : Obligations.RegisterByteCornerCases := by
  refine ⟨fun cs ck dout => eq_of_bitAt fun q => ?_, fun p a b c hlegal => ?_, fun _ _ _ _ _ => rfl⟩
  · simp [bitAt_encodeByte]
  · obtain ⟨-, -, -, hdin, -⟩ := registerByteHoldsEachLevelAtItsPin p a b c hlegal
    exact hdin

end Sys2Proof.Machine

/-! ## The port operations (spec/41_port_ops.md)

Every port operation and schedule step that is answered goes to one state, which `exec_of_answers` gives; a write goes
to `afterWrite`, and READ and SAMPLE share `exec_of_issued_read`. The completions are read off from these. -/

namespace Sys2Proof.Machine

section
variable {i : Instr} {s s1 : State} {ss : Session} {a : PortAnswer}

/-! ### What an answered operation leaves -/

/-- The whole state after any port operation or schedule step, in terms of the state before the answer (R111). -/
theorem exec_of_answers (hi : ¬ IsHostOp i) (hr : Running s ss) (ha : Answers s a s1) :
    exec i s = .next { s1 with
      phase := nextPhase i
      session := some (nextSession i ss a)
      port := portAfter (issuedOp i ss) a s.port
      trace := s.trace ++ [recordOf (issuedOp i ss) ss a s.settleDue]
      diag := s.diag ++ errorEvents (issuedOp i ss).errorKind ss.log ss.k a.status
      settleDue := settleAfter (issuedOp i ss) } := by
  obtain ⟨-, -, hport, htrace, hdiag, -, -, -, hsettle⟩ := answers_frame ha
  rw [exec_eq_transact hi, transact_of_answers hr ha, State.answered, raised_eq, hport, htrace, hdiag, hsettle]

/-- The same for all but CLOSE, which alone changes the phase (R32, R124). -/
theorem exec_of_answers_of_ne (hi : ¬ IsHostOp i) (hclose : i ≠ .closePort) (hr : Running s ss)
    (ha : Answers s a s1) :
    exec i s = .next { s1 with
      session := some (nextSession i ss a)
      port := portAfter (issuedOp i ss) a s.port
      trace := s.trace ++ [recordOf (issuedOp i ss) ss a s.settleDue]
      diag := s.diag ++ errorEvents (issuedOp i ss).errorKind ss.log ss.k a.status
      settleDue := settleAfter (issuedOp i ss) } := by
  have hphase : s1.phase = .sched := (answers_frame ha).1.trans hr.1
  rw [exec_of_answers hi hr ha, nextPhase_of_ne hclose, ← hphase]

/-- An operation that reads leaves the port as it is (R59), and its record holds the levels of an ok answer (R80). -/
theorem exec_of_issued_read (hi : ¬ IsHostOp i) (hop : issuedOp i ss = .read) (hr : Running s ss)
    (ha : Answers s a s1) :
    exec i s = .next { s1 with
      session := some (nextSession i ss a)
      trace := s.trace ++ [{ k := ss.k, op := .read, handle := ss.handle,
                             word := 0x50#8 ++ (if a.status.isOk then a.levels else 0x00#8), status := a.status,
                             bytesWritten := none, mode := none, settle := s.settleDue }]
      diag := s.diag ++ errorEvents .readFailed ss.log ss.k a.status
      settleDue := 0 } := by
  obtain ⟨-, -, hport, -⟩ := answers_frame ha
  have hclose : i ≠ .closePort := by rintro rfl; cases hop
  rw [exec_of_answers_of_ne hi hclose hr ha, hop, show portAfter .read a s.port = s1.port from hport.symm]
  rfl

/-! ### Writes (R117 to R120) -/

theorem not_isHostOp_of_writtenByte {b : Byte} (hb : writtenByte ss i = some b) : ¬ IsHostOp i := by
  intro hi
  cases i with
  | run | encode | verify => cases hb
  | _ => exact hi

theorem nextSession_of_writtenByte {b : Byte} (hb : writtenByte ss i = some b) (a : PortAnswer) :
    nextSession i ss a = ss.advance a := by
  cases i with
  | openPort | closePort | sample => cases hb
  | _ => rfl

theorem portAfter_write (b : Byte) (a : PortAnswer) (p : Port) :
    portAfter (.write b) a p = { p with outLatch := if a.status.isOk || a.applied then b else p.outLatch } := by
  rw [portAfter]
  split <;> rfl

/-- The record of a WRITE (R80, R118). -/
theorem recordOf_write (b : Byte) (ss : Session) (a : PortAnswer) (settle : Nat) :
    recordOf (.write b) ss a settle =
      { k := ss.k, op := .write b, handle := ss.handle, word := 0x40#8 ++ b, status := a.status,
        bytesWritten := some a.bytesWritten, mode := none, settle := settle } := by
  have hword : ptWord 0x4#4 b = 0x40#8 ++ b := rfl
  rw [← hword]
  rfl

/-- WRITE and every writing step go to `afterWrite`, whatever was written before (R120). -/
theorem exec_of_writtenByte {b : Byte} (hb : writtenByte ss i = some b) (hr : Running s ss) (ha : Answers s a s1) :
    exec i s = .next (afterWrite s1 ss a b) := by
  obtain ⟨-, -, hport, htrace, hdiag, -, -, -, hsettle⟩ := answers_frame ha
  have hclose : i ≠ .closePort := by rintro rfl; cases hb
  rw [exec_of_answers_of_ne (not_isHostOp_of_writtenByte hb) hclose hr ha, issuedOp_of_writtenByte hb,
    nextSession_of_writtenByte hb, portAfter_write, recordOf_write, ← hport, ← htrace, ← hdiag, ← hsettle]
  rfl

theorem errorEvents_of_ok {st : Status} (h : st.isOk = true) (kind : ErrorKind) (log : LogTarget) (k : Nat) :
    errorEvents kind log k st = [] := if_pos h

theorem errorEvents_of_failed {st : Status} (h : st.isOk = false) (kind : ErrorKind) (log : LogTarget) (k : Nat) :
    errorEvents kind log k st = [{ log := some log, event := .error kind k st }] := by
  simp [errorEvents, h]

theorem afterWrite_trace (ha : Answers s a s1) (ss : Session) (b : Byte) :
    (afterWrite s1 ss a b).trace = s.trace ++
      [{ k := ss.k, op := .write b, handle := ss.handle, word := 0x40#8 ++ b, status := a.status,
         bytesWritten := some a.bytesWritten, mode := none, settle := s.settleDue }] := by
  obtain ⟨-, -, -, htrace, -, -, -, -, hsettle⟩ := answers_frame ha
  rw [afterWrite, htrace, hsettle]

theorem afterWrite_port (ha : Answers s a s1) (ss : Session) (b : Byte) :
    (afterWrite s1 ss a b).port =
      { s.port with outLatch := if a.status.isOk || a.applied then b else s.port.outLatch } := by
  obtain ⟨-, -, hport, -⟩ := answers_frame ha
  rw [afterWrite, hport]

theorem afterWrite_diag (ha : Answers s a s1) (ss : Session) (b : Byte) :
    (afterWrite s1 ss a b).diag = s.diag ++ errorEvents .writeFailed ss.log ss.k a.status := by
  obtain ⟨-, -, -, -, hdiag, -⟩ := answers_frame ha
  rw [afterWrite, hdiag]

end

/-- Settles O20. -/
theorem writeCompletes : Obligations.WriteCompletes := by
  intro b s s1 ss a hr ha
  rw [afterWrite_port ha, afterWrite_diag ha]
  refine ⟨exec_of_writtenByte rfl hr ha, afterWrite_trace ha ss b, fun hok => ?_, fun hfailed => ?_⟩
  · simp [hok, errorEvents_of_ok hok]
  · refine ⟨?_, by rw [errorEvents_of_failed hfailed]⟩
    cases happlied : a.applied with
    | false => exact .inl (by simp [hfailed])
    | true => exact .inr (by simp)

/-- Settles O60. -/
theorem everyWriteIsIssued : Obligations.EveryWriteIsIssued := by
  intro i b s s1 ss a hr ha hb
  exact ⟨_, _, exec_of_writtenByte hb hr ha, afterWrite_trace ha ss b, rfl⟩

/-- Settles O25. -/
theorem wakePulseCompletes : Obligations.WakePulseCompletes := by
  intro s s1 ss a hr ha
  exact ⟨rfl, rfl, exec_of_writtenByte rfl hr ha, exec_of_writtenByte rfl hr ha⟩

/-- Settles O26. -/
theorem passStartCompletes : Obligations.PassStartCompletes := by
  intro m s s1 ss a hr ha
  exact ⟨rfl, exec_of_writtenByte rfl hr ha⟩

/-- Settles O27. -/
theorem bitClockStepsComplete : Obligations.BitClockStepsComplete := by
  intro m i s s1 ss a hr ha
  exact ⟨rfl, rfl, rfl, exec_of_writtenByte rfl hr ha, exec_of_writtenByte rfl hr ha, exec_of_writtenByte rfl hr ha⟩

/-- Settles O28. -/
theorem latchStepsComplete : Obligations.LatchStepsComplete := by
  intro m s s1 ss a hr ha
  exact ⟨rfl, rfl, rfl, exec_of_writtenByte rfl hr ha, exec_of_writtenByte rfl hr ha, exec_of_writtenByte rfl hr ha⟩

/-! ### The other operations -/

/-- Settles O17. -/
theorem openCompletes : Obligations.OpenCompletes := by
  intro s s1 ss a hr ha
  rw [show 0x1000#16 = ptWord 0x1#4 0x00#8 from rfl]
  exact ⟨rfl, exec_of_answers_of_ne (i := .openPort) id nofun hr ha⟩

/-- Settles O18. -/
theorem resetCompletes : Obligations.ResetCompletes := by
  intro s s1 ss a hr ha
  rw [show 0x2000#16 = ptWord 0x2#4 0x00#8 from rfl]
  exact ⟨rfl, exec_of_answers_of_ne (i := .resetPort) id nofun hr ha⟩

/-- Settles O21. -/
theorem readCompletes : Obligations.ReadCompletes := by
  intro lv s s1 ss a hr ha
  exact exec_of_issued_read id rfl hr ha

/-- Settles O22. -/
theorem closeCompletes : Obligations.CloseCompletes := by
  intro s s1 ss a hr ha
  rw [show 0x6000#16 = ptWord 0x6#4 0x00#8 from rfl]
  exact ⟨rfl, exec_of_answers (i := .closePort) id hr ha⟩

/-- The registers after SAMPLE(i): but for `C[i]` they are those after a READ (R156). -/
theorem Session.advanceSample_eq (ss : Session) (i : Fin 96) (a : PortAnswer) :
    ss.advanceSample i a = { ss.advance a with
      capture := if a.status.isOk then setElem ss.capture i (dinLevel a.levels ss.pins.din) else ss.capture } := by
  rw [Session.advanceSample]
  split <;> rfl

/-- Settles O29. -/
theorem sampleCaptures : Obligations.SampleCaptures := by
  intro m i s s1 ss a hr ha
  have hexec := exec_of_issued_read (i := .sample m i) id rfl hr ha
  rw [show nextSession (.sample m i) ss a = ss.advanceSample i a from rfl, Session.advanceSample_eq] at hexec
  refine ⟨rfl, _, hexec, fun hok => ?_, fun hfailed => by simp [hfailed]⟩
  rw [if_pos hok]
  exact ⟨by rw [elem_setElem, if_pos rfl, dinLevel], fun j hj => by rw [elem_setElem, if_neg hj]⟩

/-- Settles O30: every port operation and schedule step is a transaction with the port. -/
theorem silentPortStopsEveryOperation : Obligations.SilentPortStopsEveryOperation := by
  intro i s ss rest hi hr hp
  rw [exec_eq_transact hi]
  exact transact_of_silence hr hp _ _ _

/-! ### What stops a step (R110, R144) -/

/-- A port that is not silent answers. -/
theorem exists_answers {s : State} (h : ∀ rest, s.portPlan ≠ none :: rest) : ∃ a s1, Answers s a s1 := by
  cases ht : takeAnswer s with
  | none =>
    obtain ⟨rest, hp⟩ := (takeAnswer_eq_none s).1 ht
    exact absurd hp (h rest)
  | some as => exact ⟨as.1, as.2, (takeAnswer_eq_some s _ _).1 ht⟩

/-- A host operation completes in every state. -/
theorem exists_exec_of_isHostOp {i : Instr} (hi : IsHostOp i) (s : State) : ∃ t, exec i s = .next t := by
  cases i with
  | run cs ck dout din x log =>
    by_cases hp : s.phase = .idle
    · cases hd : distinct4 cs ck dout din with
      | false => exact ⟨_, exec_run_of_collision hp hd x log⟩
      | true => exact ⟨_, exec_run_of_legal hp hd x log⟩
    · exact ⟨_, exec_run_of_busy hp cs ck dout din x log⟩
  | encode cs ck dout a b c => exact ⟨_, exec_encode cs ck dout a b c s⟩
  | verify w r => exact ⟨_, exec_verify w r s⟩
  | _ => exact hi.elim

/-- The host decoder rejects only a port operation's code as one (R79). -/
theorem isPortCode_of_decodeHost {w : OpWord} {a b : Bits96} {log : LogTarget}
    (h : decodeHost w a b log = .error .portCodeOnHost) : isPortCode (opField w) = true := by
  unfold decodeHost at h
  split_ifs at h with hrun hencode hverify harg hport
  · cases h
  · exact hport
  · cases h

/-- A due host command whose word has no port operation's code is served. -/
theorem exists_step_of_due {s : State} {r : HostRequest} {rest : List HostRequest} (hw : s.portWord = none)
    (hh : s.hostIn = r :: rest) (h0 : r.wait = 0) (hc : isPortCode (opField r.word) = false) :
    ∃ t, step s = .next t := by
  cases hdecode : decodeHost r.word r.operand0 r.operand1 r.log with
  | ok i =>
    rw [step_of_due_ok hw hh h0 hdecode]
    exact exists_exec_of_isHostOp (isHostOp_of_decodeHost hdecode) _
  | error e =>
    refine ⟨_, step_of_due_error hw hh h0 hdecode ?_⟩
    rintro rfl
    simp [isPortCode_of_decodeHost hdecode] at hc

/-- In a session of phase `VERIFY` the comparison or the return completes (R142). -/
theorem exists_verifyPhase {s : State} {ss : Session} (hs : s.session = some ss) : ∃ t, verifyPhase s = .next t := by
  cases hm : ss.matched with
  | none => exact ⟨afterCompare s ss, by simp [verifyPhase, hs, hm, afterCompare]⟩
  | some v => exact ⟨s.endSession ss.capture v, by simp [verifyPhase, hs, hm]⟩

/-- At every position of the schedule the sequencer's step completes where the port answers (R144). -/
theorem exists_step_of_running {s : State} {ss : Session} (hd : NothingDue s) (hr : Running s ss) (hk : ss.k < 782)
    (hp : ∀ rest, s.portPlan ≠ none :: rest) : ∃ t, step s = .next t := by
  obtain ⟨i, hat⟩ := exists_decodePosition ss.pins.din hk
  have hr' : Running { s with hostIn := oneStepNearer s.hostIn } ss := hr
  obtain ⟨a, s1, ha⟩ := exists_answers (s := { s with hostIn := oneStepNearer s.hostIn }) hp
  rw [step_of_perform ((fetch_of_nothingDue hd).trans (fetchSequencer_of_running hr' hat))]
  exact ⟨_, exec_of_answers (not_isHostOp_of_decodePosition hat) hr' ha⟩

/-- Where nothing is due, a well-formed machine steps in every phase, if the port answers. -/
theorem exists_step_of_nothingDue {s : State} (hwf : s.wf = true) (hd : NothingDue s)
    (hp : ∀ rest, s.portPlan ≠ none :: rest) : ∃ t, step s = .next t := by
  cases hs : s.session with
  | none => exact ⟨_, step_of_idle_nothingDue hd ((State.wf_iff_of_noSession hs).1 hwf).2⟩
  | some ss =>
    have hss := ((State.wf_iff_of_session hs).1 hwf).2
    cases hphase : s.phase with
    | idle => exact absurd hphase (State.phase_ne_idle_of_wf hwf hs)
    | sched =>
      rw [hphase] at hss
      obtain ⟨-, hk, -⟩ := (Session.wf_sched_iff ss).1 hss
      exact exists_step_of_running hd ⟨hphase, hs⟩ hk hp
    | verify =>
      rw [step_of_verify_nothingDue hd hphase]
      exact exists_verifyPhase hs

/-- Settles O39: a step serves the host command that is due, or is the sequencer's own. -/
theorem onlyASilentPortOrAForeignWordStops : Obligations.OnlyASilentPortOrAForeignWordStops := by
  intro s hwf hp hhost
  have hw := State.portWord_of_wf hwf
  obtain ⟨r, rest, hr, h0⟩ | hd := due_or_nothingDue hw
  · exact exists_step_of_due hw hr h0 (hhost r rest hr)
  · exact exists_step_of_nothingDue hwf hd hp

/-! ### A device that fails every operation (R126, R205) -/

theorem Reaches.unique {n : Nat} {s t u : State} (ht : Reaches n s t) (hu : Reaches n s u) : t = u :=
  Host.Outcome.next.inj (ht.symm.trans hu)

/-- A RUN ends in one state only. -/
theorem RunsTo.unique {s : State} {pins : Pins} {x : Bits96} {log : LogTarget} {u v : State}
    (hu : RunsTo s pins x log u) (hv : RunsTo s pins x log v) : u = v := by
  obtain ⟨t, hrun, hreach⟩ := hu
  obtain ⟨t', hrun', hreach'⟩ := hv
  obtain rfl := Host.Outcome.next.inj (hrun.symm.trans hrun')
  exact hreach.unique hreach'

/-- An operation that failed leaves the Captured Array as it is (R156). -/
theorem nextSession_capture_of_failed {a : PortAnswer} (h : a.status.isOk = false) (i : Instr) (ss : Session) :
    (nextSession i ss a).capture = ss.capture := by
  apply eq_of_elem
  intro j
  by_contra hne
  have hok := (sample_of_nextSession_capture_ne hne).2
  simp [h] at hok

/-- As long as every answer was a failure, the Captured Array is as it was created (R27). -/
def CaptureUntouched (done : List PortAnswer) (s : State) : Prop :=
  (∀ a ∈ done, a.status.isOk = false) → ∀ ss, s.session = some ss → ss.capture = Config.captureInit

theorem captureUntouched_kept : KeptBySchedule CaptureUntouched := by
  rintro done s ss i a rest hP hr - - hfailed _ ⟨⟩
  rw [nextSession_capture_of_failed (hfailed a (by simp))]
  exact hP (fun b hb => hfailed b (List.mem_append_left _ hb)) ss hr.2

/-- A device that fails every operation raises one event for each. -/
theorem length_errorEvents_of_failed {answers : List PortAnswer} (h : ∀ a ∈ answers, a.status.isOk = false)
    (log : LogTarget) :
    (answers.zipIdx.flatMap fun ak => errorEvents (errorKindAt ak.2) log ak.2 ak.1.status).length =
      answers.length := by
  have hone : ∀ ak ∈ answers.zipIdx, (errorEvents (errorKindAt ak.2) log ak.2 ak.1.status).length = 1 := by
    intro ak hak
    rw [errorEvents_of_failed (h ak.1 (List.fst_mem_of_mem_zipIdx hak))]
    rfl
  rw [List.length_flatMap, List.map_congr_left hone]
  simp

/-- Settles O55: the records and the events are those of every RUN (O52, O54), and no SAMPLE was ok. -/
theorem failedDeviceRunReturnsTheInitialCapture : Obligations.FailedDeviceRunReturnsTheInitialCapture := by
  intro s pins x log answers rest hlegal hready hfailed
  have ⟨_, _, hlen, _⟩ := hready
  obtain ⟨u, records, hruns, htrace, -, -, hstatus⟩ :=
    runIssuesExactlyTheReferenceSchedule s pins x log answers rest hlegal hready
  obtain ⟨v, c, hruns', hreplies, hdiag⟩ := runLogsEachFailureInOrder s pins x log answers rest hlegal hready
  obtain rfl := hruns.unique hruns'
  obtain ⟨t, ss, hend, hcapture, hruns'⟩ := run_induction captureUntouched_kept hlegal hready x log
    (by rintro - _ ⟨⟩; rfl)
  obtain rfl := hruns.unique hruns'
  have hrecords : records.length = 782 := by simpa [hlen] using congrArg List.length hstatus
  obtain rfl : c = Config.captureInit := by
    have hlast : Reply.run ss.capture _ = .run c _ :=
      List.singleton_inj.1 (List.append_inj_right' hreplies rfl)
    rw [← (Reply.run.inj hlast).1]
    exact hcapture hfailed ss hend.session
  refine ⟨_, hruns, ?_, ?_, hreplies⟩
  · rw [htrace, List.length_append, hrecords]
  · rw [hdiag, List.length_append, List.length_append, length_errorEvents_of_failed hfailed, hlen]
    rfl

end Sys2Proof.Machine

/-! ## The protocol sequencer (spec/42_sequencer.md)

Where the operations of the schedule stand, how many there are, which edges their register bytes make, and what a RUN
captures and returns. -/

namespace Sys2Proof.Machine

/-! ### Positions and their operations (R153 to R156, R160, R161) -/

/-- Settles O4. -/
theorem positionsAndStepsAreInverse : Obligations.PositionsAndStepsAreInverse := by
  refine ⟨fun din i k hk hmask => decodePosition_of_position hk hmask, fun din k hk => ?_,
    fun din k hk => decodePosition_eq_none din hk⟩
  obtain ⟨i, hat⟩ := exists_decodePosition din hk
  exact ⟨i, hat, position_of_decodePosition hat⟩

/-- Operation `j` of iteration `i` of pass `m` is operation `j` of its bit cycle. -/
theorem referenceListing_iteration (p : Pins) (x : Bits96) (m : Fin 2) (i : Fin 96) {j : Nat} (hj : j < 4) :
    (referenceListing p x)[passBase m + (1 + 4 * i.val + j)]? = (bitCycleOps p (elem x i))[j]? :=
  (referenceListing_pass p x m (by omega)).trans (passOps_iteration p x i hj)

theorem samplePosition_eq (m : Fin 2) (i : Fin 96) : samplePosition m i = passBase m + (1 + 4 * i.val + 3) := by
  rw [samplePosition, passBase]
  omega

/-- Settles O50: the iteration that ends at SAMPLE(i) is the bit cycle of `P[i]`. -/
theorem iterationOrderAndSamplingPoint : Obligations.IterationOrderAndSamplingPoint := by
  intro p x m i
  have hcycle (j : Nat) (hj : j < 4) := referenceListing_iteration p x m i hj
  rw [samplePosition_eq]
  exact ⟨hcycle 0 (by omega), hcycle 1 (by omega), hcycle 2 (by omega), hcycle 3 (by omega)⟩

/-! ### What a step performs (R142, R161, R246) -/

theorem step_of_portWord {s : State} {w : OpWord} {i : Instr} (hw : s.portWord = some w) (hi : decodePort w = .ok i) :
    step s = exec i { s with portWord := none } :=
  step_of_perform (by simp [fetch, hw, fetchRecord, hi])

/-- With no host command due, a running session performs the operation of its position. -/
theorem step_of_running_nothingDue {s : State} {ss : Session} {i : Instr} (hd : NothingDue s) (hr : Running s ss)
    (hi : decodePosition ss.pins.din ss.k = some i) : step s = exec i { s with hostIn := oneStepNearer s.hostIn } :=
  step_of_perform ((fetch_of_nothingDue hd).trans
    (fetchSequencer_of_running (s := { s with hostIn := oneStepNearer s.hostIn }) hr hi))

/-- Settles O32. -/
theorem stepPerformsTheDecodedOperation : Obligations.StepPerformsTheDecodedOperation := by
  refine ⟨fun s w i => step_of_portWord, fun s r rest i hw hh h0 => step_of_due_ok hw hh h0,
    fun s ss i hq hr hi => step_of_running hq hr hi, fun s ss i r rest hw hr hh hwait hi => ?_⟩
  have hd : NothingDue s := ⟨hw, fun r' rest' hh' => by
    obtain ⟨rfl, -⟩ := List.cons.inj (hh.symm.trans hh')
    exact hwait⟩
  rw [step_of_running_nothingDue hd hr hi, hh, oneStepNearer]

theorem verifyPhase_of_matched {s : State} {ss : Session} {v : Bool} (hs : s.session = some ss)
    (hm : ss.matched = some v) : verifyPhase s = .next (s.endSession ss.capture v) := by
  simp [verifyPhase, hs, hm]

/-- Settles O35. -/
theorem runReturnsAndTheSessionIsDestroyed : Obligations.RunReturnsAndTheSessionIsDestroyed := by
  intro s ss v hd hp hs hm
  rw [step_of_verify_nothingDue hd hp]
  exact verifyPhase_of_matched (s := { s with hostIn := oneStepNearer s.hostIn }) hs hm

/-! ### The operation codes of the schedule (R162, R163) -/

/-- The codes of a pass: PASS_START, 96 bit cycles, three latch writes. -/
def passCodes : List OpCode :=
  [0x4#4] ++ (List.replicate 96 [0x4#4, 0x4#4, 0x4#4, 0x5#4]).flatten ++ [0x4#4, 0x4#4, 0x4#4]

/-- The codes of the schedule: SETUP, WAKE, two passes, CLOSE. -/
def scheduleCodes : List OpCode :=
  [0x1#4, 0x2#4, 0x3#4, 0x4#4, 0x4#4] ++ passCodes ++ passCodes ++ [0x6#4]

theorem map_code_passOps (p : Pins) (x : Bits96) : (passOps p x).map PortOp.code = passCodes := by
  have hcycle (d : Bool) : (bitCycleOps p d).map PortOp.code = [0x4#4, 0x4#4, 0x4#4, 0x5#4] := rfl
  have hiterations : (iterationOps p x).map PortOp.code =
      (List.replicate 96 [0x4#4, 0x4#4, 0x4#4, 0x5#4]).flatten := by
    rw [iterationOps, List.map_flatMap]
    simp only [hcycle, List.flatMap_def, List.map_const', List.length_finRange]
  rw [passOps_eq, List.map_append, List.map_append, hiterations]
  rfl

/-- Neither the pin assignment nor the pattern is in the codes. -/
theorem map_code_referenceListing (p : Pins) (x : Bits96) :
    (referenceListing p x).map PortOp.code = scheduleCodes := by
  simp only [referenceListing, expand, List.map_append, map_code_passOps]
  rfl

/-- Settles O46. -/
theorem scheduleIsIndependentOfData : Obligations.ScheduleIsIndependentOfData := by
  intro p q x y
  rw [map_code_referenceListing, map_code_referenceListing]

theorem count_flatten_replicate (n : Nat) (l : List OpCode) (c : OpCode) :
    (List.replicate n l).flatten.count c = n * l.count c := by
  simp [List.count_flatten]

theorem count_passCodes (c : OpCode) :
    passCodes.count c = [0x4#4, 0x4#4, 0x4#4, 0x4#4].count c + 96 * [0x4#4, 0x4#4, 0x4#4, 0x5#4].count c := by
  simp only [passCodes, List.count_append, count_flatten_replicate, List.count_cons, List.count_nil]
  omega

theorem count_scheduleCodes (c : OpCode) :
    scheduleCodes.count c = [0x1#4, 0x2#4, 0x3#4, 0x4#4, 0x4#4, 0x6#4].count c + 2 * passCodes.count c := by
  simp only [scheduleCodes, List.count_append, List.count_cons, List.count_nil]
  omega

/-- Settles O45. -/
theorem scheduleCounts : Obligations.ScheduleCounts := by
  intro p x
  rw [map_code_referenceListing]
  simp only [count_scheduleCodes, count_passCodes]
  exact ⟨referenceListing_length p x, rfl, rfl, rfl, rfl, rfl, rfl, passOps_length p x⟩

/-! ### The register bytes of the schedule and their edges (R164) -/

theorem writtenBytes_append (l r : List PortOp) : writtenBytes (l ++ r) = writtenBytes l ++ writtenBytes r := by
  induction l with
  | nil => rfl
  | cons op l ih => cases op <;> simp [writtenBytes, ih]

theorem writtenBytes_flatMap {α : Type} (f : α → List PortOp) (l : List α) :
    writtenBytes (l.flatMap f) = l.flatMap fun a => writtenBytes (f a) := by
  induction l with
  | nil => rfl
  | cons a l ih => rw [List.flatMap_cons, writtenBytes_append, ih, List.flatMap_cons]

/-- The bytes of `BITCYCLE d`: PRESENT, RISE, FALL. -/
def cycleBytes (p : Pins) (d : Bool) : List Byte := [p.enc false false d, p.enc false true d, p.enc false false d]

/-- The bytes of a pass, with its bit cycles for the levels `ds` and its latch writes at level `d`. -/
def passBytes (p : Pins) (ds : List Bool) (d : Bool) : List Byte :=
  p.enc false false false ::
    (ds.flatMap (cycleBytes p) ++ [p.enc true false d, p.enc false false d, p.enc true false d])

/-- The elements of an array in order. -/
def elems (x : Bits96) : List Bool := (List.finRange 96).map (elem x)

theorem elems_length (x : Bits96) : (elems x).length = 96 := by
  rw [elems, List.length_map, List.length_finRange]

theorem writtenBytes_passOps (p : Pins) (x : Bits96) :
    writtenBytes (passOps p x) = passBytes p (elems x) (lastElem x) := by
  rw [passOps_eq, writtenBytes_append, writtenBytes_append, iterationOps, writtenBytes_flatMap, passBytes, elems,
    List.flatMap_map]
  rfl

/-- The bytes of the schedule: WAKE, then the two passes. -/
theorem writtenBytes_referenceListing (p : Pins) (x : Bits96) :
    writtenBytes (referenceListing p x) =
      [p.enc false false false, p.enc true false false] ++
        (passBytes p (elems x) (lastElem x) ++ passBytes p (elems x) (lastElem x)) := by
  rw [referenceListing_eq]
  simp only [writtenBytes_append, writtenBytes_passOps]
  rw [show writtenBytes [PortOp.closePort] = [] from rfl, List.append_nil]
  rfl

/-- How often a list of levels goes from `v` to its opposite. -/
def levelEdges (v : Bool) : List Bool → Nat
  | [] => 0
  | [_] => 0
  | a :: b :: rest => (a == v && b == !v).toNat + levelEdges v (b :: rest)

/-- The edges on a pin are those of its levels. -/
theorem edgeCount_eq_levelEdges (q : Pin) (v : Bool) (bytes : List Byte) :
    edgeCount q v bytes = levelEdges v (bytes.map (bitAt · q)) := by
  induction bytes with
  | nil => rfl
  | cons b bytes ih =>
    cases bytes with
    | nil => rfl
    | cons b' rest =>
      simp only [edgeCount, List.tail_cons, List.map_cons, levelEdges] at ih ⊢
      rw [List.zip_cons_cons, List.filter_cons, ← ih]
      cases (bitAt b q == v && bitAt b' q == !v)
      · simp
      · simp [Nat.add_comm]

/-- The levels in a pass at a pin that is `clock` in RISE, `latch` in LATCH_HI1 and LATCH_HI2, and else low. -/
def passLevels (clock latch : Bool) : List Bool :=
  false :: ((List.replicate 96 [false, clock, false]).flatten ++ [latch, false, latch])

section
variable {p : Pins} {q : Pin} {clock latch : Bool}
  (hq : ∀ cs ck dout, bitAt (p.enc cs ck dout) q = (cs && latch || ck && clock))
include hq

theorem map_bitAt_cycles (ds : List Bool) :
    (ds.flatMap (cycleBytes p)).map (bitAt · q) = (List.replicate ds.length [false, clock, false]).flatten := by
  have hcycle (d : Bool) : (cycleBytes p d).map (bitAt · q) = [false, clock, false] := by simp [cycleBytes, hq]
  rw [List.map_flatMap]
  simp only [hcycle, List.flatMap_def, List.map_const']

theorem map_bitAt_passBytes (x : Bits96) (d : Bool) :
    (passBytes p (elems x) d).map (bitAt · q) = passLevels clock latch := by
  have hstart : bitAt (p.enc false false false) q = false := by simp [hq]
  have hlatch : [p.enc true false d, p.enc false false d, p.enc true false d].map (bitAt · q) =
      [latch, false, latch] := by simp [hq]
  rw [passBytes, List.map_cons, List.map_append, hstart, map_bitAt_cycles hq, hlatch, elems_length, passLevels]

theorem map_bitAt_referenceListing (x : Bits96) :
    (writtenBytes (referenceListing p x)).map (bitAt · q) =
      false :: latch :: (passLevels clock latch ++ passLevels clock latch) := by
  rw [writtenBytes_referenceListing, List.map_append, List.map_append, map_bitAt_passBytes hq]
  simp [hq]

end

/-- Each bit cycle rises and falls once on a pin it clocks, and leaves the pin low. -/
theorem levelEdges_cycles (v clock : Bool) (n : Nat) (rest : List Bool) :
    levelEdges v (false :: ((List.replicate n [false, clock, false]).flatten ++ rest)) =
      n * clock.toNat + levelEdges v (false :: rest) := by
  induction n with
  | zero => simp
  | succ n ih =>
    have hcycle (r : List Bool) :
        levelEdges v (false :: false :: clock :: false :: r) = clock.toNat + levelEdges v (false :: r) := by
      cases v <;> cases clock <;> simp [levelEdges]
    simp only [List.replicate_succ, List.flatten_cons, List.cons_append, List.nil_append]
    rw [hcycle, ih, Nat.succ_mul]
    omega

/-- A pin that the latch writes raise rises with WAKE_HI and twice in each pass; it is not brought down again after
the last pass. -/
theorem levelEdges_schedule (v clock latch : Bool) :
    levelEdges v (false :: latch :: (passLevels clock latch ++ passLevels clock latch)) =
      192 * clock.toNat + (if v then 4 else 5) * latch.toNat := by
  have hwake (r : List Bool) : levelEdges v (false :: latch :: false :: r) =
      latch.toNat + levelEdges v (false :: r) := by
    cases v <;> cases latch <;> simp [levelEdges]
  have hbetween (r : List Bool) : levelEdges v (false :: latch :: false :: latch :: false :: r) =
      2 * latch.toNat + levelEdges v (false :: r) := by
    rw [hwake, hwake]
    omega
  have hend : levelEdges v [false, latch, false, latch] = (if v then 1 else 2) * latch.toNat := by
    cases v <;> cases latch <;> rfl
  simp only [passLevels, List.cons_append, List.append_assoc, List.nil_append]
  rw [hwake, levelEdges_cycles, hbetween, levelEdges_cycles, hend]
  cases v <;> simp <;> omega

/-- From `b` to `b'` CK changes only with CS low and DOUT unchanged. -/
def ClocksSafely (p : Pins) (b b' : Byte) : Prop :=
  bitAt b p.ck ≠ bitAt b' p.ck →
    bitAt b p.cs = false ∧ bitAt b' p.cs = false ∧ bitAt b p.dout = bitAt b' p.dout

theorem ClocksSafely.of_ck_eq {p : Pins} {b b' : Byte} (h : bitAt b p.ck = bitAt b' p.ck) : ClocksSafely p b b' :=
  fun hne => absurd h hne

theorem rel_of_mem_zip_tail {R : Byte → Byte → Prop} {l : List Byte} (h : l.IsChain R) :
    ∀ bb ∈ l.zip l.tail, R bb.1 bb.2 := by
  induction l with
  | nil => simp
  | cons b l ih =>
    cases l with
    | nil => simp
    | cons b' rest =>
      obtain ⟨hb, hrest⟩ := List.isChain_cons_cons.1 h
      rw [List.tail_cons, List.zip_cons_cons, List.forall_mem_cons]
      exact ⟨hb, ih hrest⟩

section
variable {p : Pins} (hlegal : p.legal = true)
include hlegal

theorem bitAt_enc_ck_low (cs dout : Bool) : bitAt (p.enc cs false dout) p.ck = false := by
  simp [bitAt_enc_pins hlegal]

/-- In a bit cycle CK rises and falls with CS low and DOUT held, and it is low before and after. -/
theorem isChain_cycles (ds : List Bool) {rest : List Byte}
    (hrest : ∀ b, bitAt b p.ck = false → (b :: rest).IsChain (ClocksSafely p)) {b : Byte}
    (hb : bitAt b p.ck = false) : (b :: (ds.flatMap (cycleBytes p) ++ rest)).IsChain (ClocksSafely p) := by
  induction ds generalizing b with
  | nil => exact hrest b hb
  | cons d ds ih =>
    have henc := bitAt_enc_pins hlegal
    have hclock (ck ck' : Bool) : ClocksSafely p (p.enc false ck d) (p.enc false ck' d) := fun _ => by
      simp [henc]
    rw [List.flatMap_cons, List.append_assoc]
    exact .cons_cons (.of_ck_eq (by simp [hb, henc]))
      (.cons_cons (hclock _ _) (.cons_cons (hclock _ _) (ih (by simp [henc]))))

theorem isChain_pass (ds : List Bool) (d : Bool) {rest : List Byte}
    (hrest : ∀ b, bitAt b p.ck = false → (b :: rest).IsChain (ClocksSafely p)) {b : Byte}
    (hb : bitAt b p.ck = false) : (b :: (passBytes p ds d ++ rest)).IsChain (ClocksSafely p) := by
  have hck := bitAt_enc_ck_low hlegal
  have hlow {b : Byte} (hb : bitAt b p.ck = false) (cs d : Bool) : ClocksSafely p b (p.enc cs false d) :=
    .of_ck_eq (by rw [hb, hck])
  rw [passBytes, List.cons_append, List.append_assoc]
  refine .cons_cons (hlow hb _ _) (isChain_cycles hlegal ds (fun b hb => ?_) (hck _ _))
  exact .cons_cons (hlow hb _ _) (.cons_cons (hlow (hck _ _) _ _) (.cons_cons (hlow (hck _ _) _ _) (hrest _ (hck _ _))))

theorem isChain_referenceListing (x : Bits96) :
    (writtenBytes (referenceListing p x)).IsChain (ClocksSafely p) := by
  have hck := bitAt_enc_ck_low hlegal
  have hlast (b : Byte) (hb : bitAt b p.ck = false) :
      (b :: passBytes p (elems x) (lastElem x)).IsChain (ClocksSafely p) := by
    simpa using isChain_pass hlegal (elems x) (lastElem x) (rest := []) (fun b _ => .singleton b) hb
  rw [writtenBytes_referenceListing]
  exact .cons_cons (.of_ck_eq (by rw [hck, hck])) (isChain_pass hlegal _ _ hlast (hck _ _))

end

/-- Settles O49: the counts from the levels at each pin, the last clause along the bytes. -/
theorem edgesOnTheDrivenPins : Obligations.EdgesOnTheDrivenPins := by
  intro p x hlegal
  have hck (cs ck dout : Bool) : bitAt (p.enc cs ck dout) p.ck = (cs && false || ck && true) := by
    simp [bitAt_enc_pins hlegal]
  have hcs (cs ck dout : Bool) : bitAt (p.enc cs ck dout) p.cs = (cs && true || ck && false) := by
    simp [bitAt_enc_pins hlegal]
  simp only [edgeCount_eq_levelEdges, map_bitAt_referenceListing hck, map_bitAt_referenceListing hcs,
    levelEdges_schedule]
  exact ⟨rfl, rfl, rfl, rfl, rel_of_mem_zip_tail (isChain_referenceListing hlegal x)⟩

/-! ### The wrapping one-bit offset (R169) -/

/-- What is the same at every index as at the one before, cyclically, is constant. -/
theorem eq_zero_of_eq_pred {f : Fin 96 → Bool} (h : ∀ i, f i = f (i - 1)) (i : Fin 96) : f i = f 0 := by
  obtain ⟨n, hn⟩ := i
  induction n with
  | zero => rfl
  | succ n ih =>
    have hpred : (⟨n + 1, hn⟩ : Fin 96) - 1 = ⟨n, by omega⟩ := by
      apply Fin.ext
      simp [Fin.sub_def]
      omega
    rw [h, hpred]
    exact ih _

/-- Settles O16: MATCH says that each element equals the one before it. -/
theorem oneBitOffsetMatchesOnlyConstantPatterns : Obligations.OneBitOffsetMatchesOnlyConstantPatterns := by
  intro x c hoffset
  rw [verdict_eq_decide, decide_eq_true_eq]
  constructor
  · rintro rfl i j
    rw [eq_zero_of_eq_pred hoffset i, eq_zero_of_eq_pred hoffset j]
  · intro hconst
    refine eq_of_elem fun i => ?_
    rw [hoffset]
    exact hconst i (i - 1)

/-! ### The captured array of a RUN (R156, R166) -/

/-- The level sampled at position `k`: the answer's DIN bit where there is one and it is ok, else `old` (R156). -/
def levelSampled (din : Pin) (answers : List PortAnswer) (k : Nat) (old : Bool) : Bool :=
  match answers[k]? with
  | some a => if a.status.isOk then bitAt a.levels din else old
  | none => old

section
variable {din : Pin} {done : List PortAnswer} {k : Nat} {old : Bool}

theorem levelSampled_of_answer {a : PortAnswer} (h : done[k]? = some a) :
    levelSampled din done k old = if a.status.isOk then bitAt a.levels din else old := by
  rw [levelSampled, h]

/-- A position that is not reached samples nothing. -/
theorem levelSampled_of_le (h : done.length ≤ k) : levelSampled din done k old = old := by
  rw [levelSampled, List.getElem?_eq_none h]

theorem levelSampled_append_self (a : PortAnswer) :
    levelSampled din (done ++ [a]) done.length old = if a.status.isOk then bitAt a.levels din else old :=
  levelSampled_of_answer (by simp)

/-- A further answer is sampled at its own position only. -/
theorem levelSampled_append_of_ne (a : PortAnswer) (h : k ≠ done.length) :
    levelSampled din (done ++ [a]) k old = levelSampled din done k old := by
  have hsame : (done ++ [a])[k]? = done[k]? := by
    rcases Nat.lt_or_gt_of_ne h with hlt | hgt
    · exact List.getElem?_append_left hlt
    · rw [List.getElem?_eq_none (by simpa using hgt), List.getElem?_eq_none hgt.le]
  rw [levelSampled, levelSampled, hsame]

end

/-- `C[i]` after the answers so far: what pass 1 sampled, over what pass 0 sampled, over `CAPTURE_INIT[i]` (R166). -/
def elemCaptured (din : Pin) (answers : List PortAnswer) (i : Fin 96) : Bool :=
  levelSampled din answers (samplePosition 1 i)
    (levelSampled din answers (samplePosition 0 i) (elem Config.captureInit i))

theorem samplePosition_zero_lt_one (i : Fin 96) : samplePosition 0 i < samplePosition 1 i := by
  simp [samplePosition]

/-- An answer at the position of SAMPLE(i) makes `C[i]` its DIN bit if it is ok. -/
theorem elemCaptured_append_of_sample {din : Pin} {done : List PortAnswer} {m : Fin 2} {i : Fin 96} (a : PortAnswer)
    (h : done.length = samplePosition m i) :
    elemCaptured din (done ++ [a]) i = if a.status.isOk then bitAt a.levels din else elemCaptured din done i := by
  have hlt := samplePosition_zero_lt_one i
  unfold elemCaptured
  match m with
  | 0 =>
    have hlater : done.length ≤ samplePosition 1 i := by omega
    rw [levelSampled_append_of_ne a (by omega), levelSampled_of_le hlater, levelSampled_of_le hlater, ← h,
      levelSampled_append_self, levelSampled_of_le le_rfl]
  | 1 =>
    rw [levelSampled_append_of_ne (k := samplePosition 0 i) a (by omega), ← h, levelSampled_append_self,
      levelSampled_of_le le_rfl]

/-- Any other answer leaves `C[i]`. -/
theorem elemCaptured_append_of_ne {din : Pin} {done : List PortAnswer} {i : Fin 96} (a : PortAnswer)
    (h : ∀ m, samplePosition m i ≠ done.length) : elemCaptured din (done ++ [a]) i = elemCaptured din done i := by
  rw [elemCaptured, levelSampled_append_of_ne a (h 1), levelSampled_append_of_ne a (h 0), elemCaptured]

theorem elem_nextSession_sample (m : Fin 2) (i : Fin 96) (ss : Session) (a : PortAnswer) :
    elem (nextSession (.sample m i) ss a).capture i =
      if a.status.isOk then bitAt a.levels ss.pins.din else elem ss.capture i := by
  rw [show nextSession (.sample m i) ss a = ss.advanceSample i a from rfl, Session.advanceSample_capture]
  split
  · rw [elem_setElem, if_pos rfl, dinLevel]
  · rfl

/-- No operation but a SAMPLE of it writes an element. -/
theorem elem_nextSession_of_ne {i : Instr} {j : Fin 96} (h : ∀ m, i ≠ .sample m j) (ss : Session) (a : PortAnswer) :
    elem (nextSession i ss a).capture j = elem ss.capture j := by
  by_contra hne
  obtain ⟨⟨m, hm⟩, -⟩ := sample_of_nextSession_capture_ne hne
  exact h m hm

/-- The Captured Array is what the answers in `done` make it, and the host has been answered nothing since `s0`. -/
def CaptureFollows (s0 : State) (pins : Pins) (x : Bits96) (log : LogTarget) (done : List PortAnswer) (s : State) :
    Prop :=
  SessionOfRun pins x log s ∧ s.replies = s0.replies ∧
    ∀ ss, s.session = some ss → ∀ i, elem ss.capture i = elemCaptured pins.din done i

theorem captureFollows_kept (s0 : State) (pins : Pins) (x : Bits96) (log : LogTarget) :
    KeptBySchedule (CaptureFollows s0 pins x log) := by
  rintro done s ss i a rest ⟨hsession, hreplies, hcapture⟩ hr hk hat
  refine ⟨hsession.afterPlanned hr i a rest, hreplies, ?_⟩
  rintro _ ⟨⟩ j
  obtain ⟨rfl, -, -⟩ := hsession ss hr.2
  have hold := hcapture ss hr.2 j
  rw [hk] at hat
  by_cases hsample : ∃ m, i = .sample m j
  · obtain ⟨m, rfl⟩ := hsample
    have hposition : done.length = samplePosition m j := (Option.some.inj (position_of_decodePosition hat)).symm
    rw [elem_nextSession_sample, elemCaptured_append_of_sample a hposition, hold]
  · have hother (m : Fin 2) : samplePosition m j ≠ done.length := fun hm =>
      hsample ⟨m, Option.some.inj (hat.symm.trans
        (decodePosition_of_position (hm ▸ rfl) fun _ h => by cases h))⟩
    rw [elem_nextSession_of_ne (fun m hm => hsample ⟨m, hm⟩), elemCaptured_append_of_ne a hother, hold]

theorem captureFollows_beginSession (s : State) (pins : Pins) (x : Bits96) (log : LogTarget) :
    CaptureFollows s pins x log [] (s.beginSession (freshSession pins x log)) := by
  refine ⟨sessionOfRun_beginSession s pins x log, rfl, ?_⟩
  rintro _ ⟨⟩ i
  rw [elemCaptured, levelSampled_of_le (Nat.zero_le _), levelSampled_of_le (Nat.zero_le _)]
  rfl

/-- Settles O51, by induction over the answers of the port. -/
theorem runReturnsTheFinalCapture : Obligations.RunReturnsTheFinalCapture := by
  intro s pins x log answers rest hlegal hready
  obtain ⟨t, ss, hend, ⟨hsession, hreplies, hcapture⟩, hruns⟩ :=
    run_induction (captureFollows_kept s pins x log) hlegal hready x log (captureFollows_beginSession s pins x log)
  obtain ⟨rfl, rfl, rfl⟩ := hsession ss hend.session
  refine ⟨_, ss.capture, hruns, rfl, rfl, hend.portPlan, ?_, fun i a0 a1 h0 h1 => ?_⟩
  · simp [afterReturn, hreplies, verdict_eq_decide]
  · rw [hcapture ss hend.session, elemCaptured, levelSampled_of_answer h1, levelSampled_of_answer h0]

end Sys2Proof.Machine

/-! ## The pattern verifier (spec/43_verifier.md)

`verdict_eq_decide` runs the loop of R180; what follows is read off from it. -/

namespace Sys2Proof.Machine

theorem eq_iff_forall_elem {x y : Bits96} : x = y ↔ ∀ i, elem x i = elem y i :=
  ⟨fun h i => by rw [h], eq_of_elem⟩

theorem verdict_eq_true_iff {w r : Bits96} : verdict w r = true ↔ w = r := by
  rw [verdict_eq_decide, decide_eq_true_eq]

theorem verdict_eq_false_iff {w r : Bits96} : verdict w r = false ↔ w ≠ r := by
  rw [verdict_eq_decide, decide_eq_false_iff_not]

/-- A single mismatched element fails the comparison (R181). -/
theorem verdict_eq_false_of_elem_ne {w r : Bits96} {i : Fin 96} (h : elem w i ≠ elem r i) : verdict w r = false :=
  verdict_eq_false_iff.2 fun heq => h (eq_iff_forall_elem.1 heq i)

theorem verdict_comm (w r : Bits96) : verdict w r = verdict r w := by
  rw [Bool.eq_iff_iff, verdict_eq_true_iff, verdict_eq_true_iff]
  exact eq_comm

theorem elem_setElem_not_ne (x : Bits96) (i : Fin 96) : elem x i ≠ elem (setElem x i (!elem x i)) i := by
  rw [elem_setElem, if_pos rfl]
  exact Bool.self_ne_not (elem x i)

/-- Settles O13. -/
theorem verdictIsElementwiseEquality : Obligations.VerdictIsElementwiseEquality := fun _ _ =>
  ⟨verdict_eq_true_iff.trans eq_iff_forall_elem, verdict_eq_true_iff⟩

/-- Settles O15: the flipped element 47 is one that differs. -/
theorem verdictCornerCases : Obligations.VerdictCornerCases :=
  ⟨fun _ => verdict_eq_true_iff.2 rfl, fun _ _ _ hne => verdict_eq_false_of_elem_ne hne, verdict_comm,
    fun x => verdict_eq_false_of_elem_ne (elem_setElem_not_ne x 47)⟩

/-- Settles O59: two comparisons that fail have the one verdict 0. -/
theorem mismatchFailsWithoutPartialCredit : Obligations.MismatchFailsWithoutPartialCredit :=
  ⟨fun _ _ _ hne => verdict_eq_false_of_elem_ne hne,
    fun _ _ _ _ hne hne' => (verdict_eq_false_iff.2 hne).trans (verdict_eq_false_iff.2 hne').symm⟩

end Sys2Proof.Machine

/-! ## Errors of port operations (spec/60_exceptions.md) -/

namespace Sys2Proof.Machine

/-! ### The codes of the errors (R200) -/

/-- An error is numbered as the operation that raises it. -/
theorem errorKind_code (op : PortOp) : op.errorKind.code = op.code.toNat := by
  cases op <;> rfl

theorem isPortCode_code (op : PortOp) : isPortCode op.code = true := by
  cases op <;> rfl

/-- Settles O23. -/
theorem errorCodeIsTheOperationCode : Obligations.ErrorCodeIsTheOperationCode := by
  intro op
  rw [errorKind_code]
  exact ⟨rfl, (isPortCode_iff op.code).1 (isPortCode_code op)⟩

/-! ### The event of a failing operation (R204) -/

/-- The port's next answer depends on its plan and on the count of free answers only (assumption 5). -/
theorem Answers.of_same_port {s s' s1 : State} {a : PortAnswer} (h : Answers s a s1)
    (hplan : s'.portPlan = s.portPlan) (htaken : s'.answersTaken = s.answersTaken) : ∃ s1', Answers s' a s1' := by
  obtain ⟨rest, hp, -⟩ | ⟨hp, ha, -⟩ := h
  · exact ⟨_, .inl ⟨rest, hplan.trans hp, rfl⟩⟩
  · exact ⟨_, .inr ⟨hplan.trans hp, by rw [ha, htaken], rfl⟩⟩

/-- The step at the session's position appends the event of the position's kind, or none if it was answered ok. -/
theorem PortMove.diag_of_position {i : Instr} {ss : Session} {a : PortAnswer} {s t : State} (h : PortMove i ss a s t)
    (hk : position i = some ss.k) : t.diag = s.diag ++ errorEvents (errorKindAt ss.k) ss.log ss.k a.status := by
  obtain ⟨-, hdiag, -⟩ := h.outputs
  rw [hdiag, raised_eq, errorKindAt_of_position hk ss]

/-- Settles O43: the sequencer's step is the port operation at the session's position. -/
theorem oneEventPerFailingOperation : Obligations.OneEventPerFailingOperation := by
  intro s t ss _ hd hr h
  obtain ⟨i, a, hat, hmove⟩ := (sequencerMove_of_step hd h).operate_of_running hr
  obtain ⟨s0, ha, -⟩ := hmove.answered
  obtain ⟨s1, ha⟩ := ha.of_same_port (s' := s) rfl rfl
  exact ⟨a, s1, ha, hmove.diag_of_position (position_of_decodePosition hat)⟩

end Sys2Proof.Machine
